-- ==== Sys2Proof/Word.lean ====
section
/-! DEFINITION. The word types of the DS12: bytes of the links, 32-bit tags, counters and frame numbers, and the
numbers of channels, links, seams and counters, each with its bound in its type. -/

namespace Sys2Proof

/-- One byte of a control link (R179). -/
abbrev Byte := BitVec 8

/-- A tag, a counter or the sky frame number: 32 bits, wrapping (R114, R134, R205). -/
abbrev Word32 := BitVec 32

/-- A channel, 0 to 11. -/
abbrev Channel := Fin 12

/-- A link in counter and status numbering: 0 to 11 are TL0 to TL11, 12 is SL. -/
abbrev Link := Fin 13

/-- The show link. -/
abbrev SL : Link := 12

/-- A seam id, 0 to 47 (R18). -/
abbrev SeamId := Fin 48

/-- An index of the counter map, 0 to 156 (R205). -/
abbrev CounterIx := Fin 157

/-- A colour code of a pixel port, 0 to 1023 (R114). -/
abbrev Code := Fin 1024

end Sys2Proof
end

