-- ==== Sys2Proof/Syntax.lean ====
section
/-! DEFINITION. The commands of the DS12: one constructor of `Instr` for each row of spec/opcode_table.json. -/

namespace Sys2Proof

/-- One pixel of a pixel input line: three codes (R114). -/
structure Pixel where
  r : Code
  g : Code
  b : Code
deriving DecidableEq, Repr

/-- Which of two messages that one request causes on one link is handed to the port first. The spec gives both orders
(DESIGN CHOICE, safe: notes/assumptions/14.md). -/
inductive Handing where
  | responseFirst
  | noticeFirst
deriving DecidableEq, Repr

/-- The actions one Input Receiver may take at one output frame start: its loss count step (R124), a promotion asked
of it (R126) and a raster change told to it (R128). -/
inductive ReceiverAct where
  | loss
  | promote
  | raster
deriving DecidableEq, Repr

/-- The order of one receiver's actions at one output frame start. Each may come first (R127, R129). -/
inductive ReceiverOrder where
  | lossPromoteRaster
  | lossRasterPromote
  | promoteLossRaster
  | promoteRasterLoss
  | rasterLossPromote
  | rasterPromoteLoss
deriving DecidableEq, Repr

/-- What names one emission of notices at an output frame start: the stall of a channel (R144), the swap (R104), the
skew of a channel (R149), the release (R150, R151), the loss of a channel's input (R124). -/
inductive NoticeKey where
  | stalled (c : Channel)
  | swapped
  | skew (c : Channel)
  | release
  | inputLost (c : Channel)
deriving DecidableEq, Repr

/-- How one output frame start settles the orders that the spec leaves open: the order of actions within each
receiver, and for each port the order in which the producers hand it their notices (R129, R197; DESIGN CHOICE, safe:
notes/assumptions/5.md). And for each channel whether the header of the frame in reception fell together with the frame start
and was taken first (R125; DEDUCED, safe: notes/assumptions/28.md). -/
structure FrameRace where
  receivers : Vector ReceiverOrder 12
  together : Vector Bool 12
  notices : Vector (List NoticeKey) 13
deriving DecidableEq, Repr

/-- What settles a SET_TIMING besides its message: the time in nanoseconds of the model's clock at which it is taken, the
order of its response and its notice, and the output frame start that falls at once where its moment has passed (R162;
DESIGN CHOICE, safe: notes/assumptions/7.md, 14.md). -/
structure TimingTaking where
  time : Nat
  order : Handing
  race : FrameRace
deriving DecidableEq, Repr

/-- The commands. A request row is the moment at which the port of its link takes that request from its receive
buffer (R187); the request's fields travel in the message (R204; DESIGN CHOICE, safe: notes/assumptions/1.md). An event row
is that event; a row that names a happening of a frame start is the whole frame start at which it happens (DESIGN CHOICE,
safe: notes/assumptions/6.md). -/
inductive Instr where
  /-- STAGE_NODES (R8). -/
  | stageNodes (link : Link)
  /-- STAGE_SEAM (R21). -/
  | stageSeam (link : Link)
  /-- DROP_SEAM (R22). -/
  | dropSeam (link : Link)
  /-- STAGE_CHANNEL (R9). -/
  | stageChannel (link : Link)
  /-- STAGE_FLOOR (R14). -/
  | stageFloor (link : Link)
  /-- STAGE_LUT (R13). -/
  | stageLut (link : Link)
  /-- DISCARD (R83, R84). -/
  | discard (link : Link)
  /-- COMMIT (R91). -/
  | commit (link : Link)
  /-- ABORT_COMMIT (R99). -/
  | abortCommit (link : Link) (order : Handing)
  /-- ENROLL (R152). -/
  | enroll (link : Link)
  /-- WITHDRAW (R153). -/
  | withdraw (link : Link)
  /-- SET_BARRIER (R155). -/
  | setBarrier (link : Link)
  /-- SET_CADENCE (R137). -/
  | setCadence (link : Link)
  /-- FADE (R173). -/
  | fade (link : Link)
  /-- OUTPUT_ON (R171). -/
  | outputOn (link : Link)
  /-- OUTPUT_OFF (R171). -/
  | outputOff (link : Link)
  /-- SET_TIMING (R162, R163). -/
  | setTiming (link : Link) (taking : TimingTaking)
  /-- SET_RASTER (R170). -/
  | setRaster (link : Link)
  /-- SET_MODE (R192). -/
  | setMode (link : Link)
  /-- RESTART (R202). -/
  | restart (link : Link) (order : Handing)
  /-- SET_NOTICES (R194). -/
  | setNotices (link : Link)
  /-- READ_NODES (R16). -/
  | readNodes (link : Link)
  /-- READ_SEAM (R35). -/
  | readSeam (link : Link)
  /-- READ_STATUS (R209). -/
  | readStatus (link : Link)
  /-- READ_COUNTER (R207). -/
  | readCounter (link : Link)
  /-- UNKNOWN_KIND: a request whose KIND is none of the 25 (R188). -/
  | unknownKind (link : Link)
  /-- STAGING_TURN: the arbiter gives a turn (R77, R78). -/
  | stagingTurn
  /-- APPLYING_COMPLETES (R94). -/
  | applyingCompletes
  /-- CHECKING_COMPLETES (R95). -/
  | checkingCompletes
  /-- NORMALIZING_COMPLETES (R96). -/
  | normalizingCompletes
  /-- FLOORING_COMPLETES (R43). -/
  | flooringCompletes
  /-- LIFTING_COMPLETES (R49, R97). -/
  | liftingCompletes
  /-- OUTPUT_FRAME_START: one period elapses in FREE, ACQUIRE or HOLDOVER (R161). -/
  | outputFrameStart (race : FrameRace)
  /-- ELIGIBLE_FRAME_START: the output frame start that finds the cadence counter at 0 (R136, R138). -/
  | eligibleFrameStart (race : FrameRace)
  /-- FORCED_RELEASE: the output frame start at which ω reaches θ (R138, R143). -/
  | forcedRelease (race : FrameRace)
  /-- STALL: the output frame start at which channel `c` stalls (R144). -/
  | stall (c : Channel) (race : FrameRace)
  /-- INPUT_LOST: the output frame start at which the input of channel `c` is declared lost (R124). -/
  | inputLost (c : Channel) (race : FrameRace)
  /-- PIXEL_DELIVERY: the engine of channel `c` delivers its next pixel (R53). -/
  | pixelDelivery (c : Channel)
  /-- FRAME_HEADER with its tag (R120). -/
  | frameHeader (c : Channel) (tag : Word32)
  /-- LINE, a run of pixels (R121). -/
  | line (c : Channel) (pixels : List Pixel)
  /-- FRAME_END (R122). -/
  | frameEnd (c : Channel)
  /-- REF_EDGE at `time` nanoseconds of the model's clock (R164; DESIGN CHOICE: notes/assumptions/7.md). -/
  | refEdge (time : Nat) (race : FrameRace)
  /-- SUBSTITUTE_FRAME_START (R167). -/
  | substituteFrameStart (race : FrameRace)
  /-- HOLDOVER_ENTRY (R167). -/
  | holdoverEntry
  /-- LINK_BYTE: one byte arrives on a receive line (R181). -/
  | linkByte (link : Link) (byte : Byte)
  /-- GAP_TIMER_EXPIRY (R182). -/
  | gapTimerExpiry (link : Link)
  /-- LINK_BREAK (R185). -/
  | linkBreak (link : Link)
  /-- LINK_BREAK_END (R186). -/
  | linkBreakEnd (link : Link)
  /-- MESSAGE_TRANSMIT: the transmitter sends the next `count` bytes of the head message (R196). -/
  | messageTransmit (link : Link) (count : Nat)
  /-- HARD_RESET: RESET_N goes low (R201). -/
  | hardReset
  /-- HARD_RESET_END: RESET_N returns high (R201). -/
  | hardResetEnd
deriving DecidableEq, Repr

end Sys2Proof
end

