-- ==== Sys2Proof/Decode.lean ====
section
/-! DEFINITION. The decoder of opcode-table words. No row of spec/opcode_table.json gives bits: the DS12's commands are
events and framed messages, not words, so no word spells a command (DEDUCED, safe: notes/assumptions/3.md). -/

namespace Sys2Proof

/-- The command a table word spells: none, for every width and word, since no row of the table gives bits. -/
def decodeTableWord (_nbits _w : Nat) : Option Instr := none

end Sys2Proof
end

