-- ==== Sys2Proof/Machine/Bytes.lean ====
section
/-! DEFINITION. Byte order, byte fields and the CRC of the control links (R179, R180, R204). -/

namespace Sys2Proof.Machine

/-- The `n` bytes of `v`, least significant byte first (R179). -/
def leBytes (n v : Nat) : List Byte := (List.range n).map fun i => BitVec.ofNat 8 (v / 256 ^ i)

/-- A signed value as 2 bytes in two's complement (R190). -/
def leSigned (v : Int) : List Byte := leBytes 2 (v % 65536).toNat

/-- The byte at offset `i` of a payload, as a number. -/
def u8 (p : List Byte) (i : Nat) : Nat := (p.getD i 0).toNat

/-- The 2-byte field at offset `i`, least significant byte first. -/
def u16 (p : List Byte) (i : Nat) : Nat := u8 p i + 256 * u8 p (i + 1)

/-- The signed 2-byte field at offset `i` (R204). -/
def s16 (p : List Byte) (i : Nat) : Int :=
  if u16 p i < 32768 then (u16 p i : Int) else (u16 p i : Int) - 65536

/-- Bit `k` of the byte at offset `i`. -/
def bitAt (p : List Byte) (i k : Nat) : Bool := (u8 p i).testBit k

/-- One shift of the CRC register (R180). -/
def crcShift (reg : BitVec 16) : BitVec 16 :=
  if reg.msb then (reg <<< 1) ^^^ 0x1021#16 else reg <<< 1

/-- One byte enters the CRC register at its high end and is shifted through (R180). -/
def crcByte (reg : BitVec 16) (b : Byte) : BitVec 16 :=
  (List.range 8).foldl (fun r _ => crcShift r) (reg ^^^ (b.setWidth 16 <<< 8))

/-- The CHECK of a run of bytes (R180). -/
def crc (bytes : List Byte) : BitVec 16 := bytes.foldl crcByte 0xFFFF#16

/-- A message on the line: SYNC, KIND, LENGTH, PAYLOAD and CHECK (R179). -/
def messageBytes (kind : Byte) (payload : List Byte) : List Byte :=
  let covered := kind :: (leBytes 2 payload.length ++ payload)
  0xA5#8 :: (covered ++ leBytes 2 (crc covered).toNat)

/-- The set of the channels that `f` holds of, as a mask (R190). -/
def channelSet (f : Channel → Bool) : BitVec 12 :=
  (List.range 12).foldl (fun m i => if h : i < 12 then (if f ⟨i, h⟩ then m ||| (1#12 <<< i) else m) else m) 0#12

end Sys2Proof.Machine
end

