-- ==== Sys2Proof/Config.lean ====
section
/-! DEFINITION. The sizes and limits that the DS12's spec fixes. The part has no implementation-defined value: nothing
here is free. -/

namespace Sys2Proof

/-- Nodes of one grid, 41 × 26 (R4). -/
abbrev Config.nodesPerGrid : Nat := 1066

/-- Node columns of a grid (R4). -/
abbrev Config.nodeColumns : Nat := 41

/-- Entries of the point pool of one bank (R20). -/
abbrev Config.poolSize : Nat := 2048

/-- Units the Staging Queue holds (R73). -/
abbrev Config.queueUnits : Nat := 8192

/-- Bytes of one receive buffer (R178). -/
abbrev Config.bufferBytes : Nat := 4096

/-- Greatest LENGTH of a message (R179). -/
abbrev Config.maxPayload : Nat := 2048

/-- Notices one outbound queue holds (R195). -/
abbrev Config.maxNotices : Nat := 15

/-- Shortest REF interval in range, in nanoseconds (R164). -/
abbrev Config.minInterval : Nat := 6896552

/-- Longest REF interval in range, in nanoseconds (R164). -/
abbrev Config.maxInterval : Nat := 42553191

/-- Full weight, in units of 1/4096 (R33). -/
abbrev Config.fullWeight : Nat := 4096

/-- Full linear light. -/
abbrev Config.fullLight : Nat := 65535

end Sys2Proof
end

