-- ==== Sys2Proof/Machine/State.lean ====
section
/-! DEFINITION. The state of the DS12 as plain data: the two table banks, the Staging Queue, the Commit Engine, the Input
Receivers, the Frame Barrier, the Output Timing Generator, the Fade Unit, the Pixel Engines, the counters, the Link Ports,
the reset pin and the queue of waiting commands; and the state after hard reset. -/

namespace Sys2Proof.Machine

/-! ### Sparse tables -/

/-- A table of values by address, as a list of (address, value). In its canonical form addresses rise strictly and no
entry equals what an unlisted address reads as; that default belongs to the table's use, not to the list (DESIGN CHOICE,
safe: notes/assumptions/11.md). -/
structure Table (α : Type) where
  entries : List (Nat × α)
deriving DecidableEq, Repr

/-- The table that lists nothing. -/
def Table.empty {α : Type} : Table α := ⟨[]⟩

/-! ### The table banks (chapters 1 and 2) -/

/-- The colour of an output LUT or gain (R12). -/
inductive Colour where
  | r | g | b
deriving DecidableEq, Repr

/-- A seam reference: the point of which a node is a member node (R5). -/
structure SeamRef where
  seam : Nat
  point : Nat
deriving DecidableEq, Repr

/-- A node record (R5). -/
structure Node where
  u : Int
  v : Int
  isVoid : Bool
  baseWeight : Nat
  weight : Nat
  lift : Nat
  seamRef : Option SeamRef
deriving DecidableEq, Repr

/-- The dark default of every node (R15). -/
def Node.dark : Node :=
  { u := 0, v := 0, isVoid := true, baseWeight := 4096, weight := 0, lift := 0, seamRef := none }

/-- A channel record: input raster, black ratio, gains (R9). -/
structure ChannelRecord where
  width : Nat
  height : Nat
  beta : Nat
  gainR : Nat
  gainG : Nat
  gainB : Nat
deriving DecidableEq, Repr

/-- The default channel record (R9, R15). -/
def ChannelRecord.dark : ChannelRecord :=
  { width := 1920, height := 1080, beta := 0, gainR := 4096, gainG := 4096, gainB := 4096 }

/-- A member entry of a seam point: a node of that member's grid and its raw coverage (R19). -/
structure MemberEntry where
  node : Nat
  coverage : Nat
deriving DecidableEq, Repr

/-- A seam record: its member channels in order, and its points, each with one member entry per member (R19). -/
structure Seam where
  members : List Channel
  points : List (List MemberEntry)
deriving DecidableEq, Repr

/-- The floor mode (R14). -/
inductive FloorMode where
  | fixed | auto
deriving DecidableEq, Repr

/-- The sky record (R14). -/
structure SkyRecord where
  floorMode : FloorMode
  phiSet : Nat
  tau : Nat
  phi : Nat
  headroom : Nat
deriving DecidableEq, Repr

/-- The default sky record (R14, R51). -/
def SkyRecord.dark : SkyRecord := { floorMode := .fixed, phiSet := 0, tau := 0, phi := 0, headroom := 65535 }

/-- One table bank (R1). The output LUT of channel c in colour k stands at 3c + k; a grid lists its nodes by node index. -/
structure Bank where
  grids : Vector (Table Node) 12
  records : Vector ChannelRecord 12
  inputLut : Table Nat
  outputLuts : Vector (Table Nat) 36
  seams : Vector (Option Seam) 48
  sky : SkyRecord
deriving DecidableEq, Repr

/-- The dark defaults of R15. -/
def Bank.dark : Bank :=
  { grids := Vector.replicate 12 Table.empty
    records := Vector.replicate 12 ChannelRecord.dark
    inputLut := Table.empty
    outputLuts := Vector.replicate 36 Table.empty
    seams := Vector.replicate 48 none
    sky := SkyRecord.dark }

/-- The two banks of the Table Store; `activeIsB` says which is designated ACTIVE (R1, R3). -/
structure TableStore where
  bankA : Bank
  bankB : Bank
  activeIsB : Bool
deriving DecidableEq, Repr

/-! ### The Staging Queue (chapter 5) -/

/-- The fields a NODES record selects (R8). -/
structure NodeMask where
  position : Bool
  isVoid : Bool
  baseWeight : Bool
deriving DecidableEq, Repr

/-- A node entry of a NODES record (R204). -/
structure NodeEntry where
  u : Int
  v : Int
  isVoid : Bool
  baseWeight : Nat
deriving DecidableEq, Repr

/-- The fields a CHANNEL record selects (R9). -/
structure ChannelMask where
  raster : Bool
  beta : Bool
  gains : Bool
deriving DecidableEq, Repr

/-- The fields a FLOOR record selects (R14). -/
structure FloorMask where
  mode : Bool
  phiSet : Bool
  tau : Bool
deriving DecidableEq, Repr

/-- The target of a LUT record (R13). -/
inductive LutTarget where
  | input
  | output (c : Channel) (k : Colour)
deriving DecidableEq, Repr

/-- The contents of an edit record, by kind (R74). -/
inductive Edit where
  | nodes (c : Channel) (start : Nat) (mask : NodeMask) (entries : List NodeEntry)
  | seam (id : SeamId) (record : Seam)
  | seamDrop (id : SeamId)
  | channel (c : Channel) (mask : ChannelMask) (values : ChannelRecord)
  | floor (mask : FloorMask) (mode : FloorMode) (phiSet : Nat) (tau : Nat)
  | lut (target : LutTarget) (start : Nat) (values : List Nat)
deriving DecidableEq, Repr

/-- An edit record with its originating link (R73). -/
structure EditRecord where
  origin : Link
  edit : Edit
deriving DecidableEq, Repr

/-- The mark: the marked record count and the marked units (R80). -/
structure Mark where
  count : Nat
  units : Nat
deriving DecidableEq, Repr

/-- The Staging Queue, head first, its mark, and the Staging Arbiter's rotation pointer (R73, R77, R80). -/
structure Staging where
  records : List EditRecord
  mark : Option Mark
  pointer : Link
deriving DecidableEq, Repr

/-- The Staging Queue after hard reset and RESTART (R88). -/
def Staging.reset : Staging := { records := [], mark := none, pointer := 0 }

/-! ### The Commit Engine (chapter 6) -/

/-- The commit state (R90). -/
inductive CommitState where
  | idle | applying | checking | normalizing | flooring | lifting | armed
deriving DecidableEq, Repr

/-- The lead member of one seam point: its position in the member list, counted from 0 (R33, R34). -/
structure Lead where
  seam : Nat
  point : Nat
  position : Nat
deriving DecidableEq, Repr

/-- The current-commit record (R90). Leads are empty until NORMALIZING records them; the floor fields are 0 and clear
until FLOORING and LIFTING derive them. -/
structure CurrentCommit where
  link : Link
  count : Nat
  units : Nat
  leads : List Lead
  phi : Nat
  floorClamped : Bool
  shortfall : Nat
deriving DecidableEq, Repr

/-- The result of the last commit (R107). -/
inductive CommitResult where
  | none | done | failed | aborted
deriving DecidableEq, Repr

/-- The error code of the last commit (R98, R107). -/
inductive CommitError where
  | none | pointPoolFull | seamVoidNode | nodeConflict | zeroCoverage
deriving DecidableEq, Repr

/-- The item a failure names (R98). -/
inductive Item where
  | point (seam : Nat) (point : Nat)
  | node (c : Channel) (node : Nat)
deriving DecidableEq, Repr

/-- The outcome part of the last-result record (R107). -/
structure OutcomePart where
  result : CommitResult
  error : CommitError
  item : Option Item
  link : Option Link
  count : Nat
  swapFrame : Option Word32
deriving DecidableEq, Repr

/-- The floor part of the last-result record (R107). -/
structure FloorPart where
  phi : Nat
  floorClamped : Bool
  shortfall : Nat
deriving DecidableEq, Repr

/-- The last-result record (R107). -/
structure LastResult where
  outcome : OutcomePart
  floor : FloorPart
deriving DecidableEq, Repr

/-- The hard-reset values of the last-result record (R107). -/
def LastResult.reset : LastResult :=
  { outcome := { result := .none, error := .none, item := none, link := none, count := 0, swapFrame := none }
    floor := { phi := 0, floorClamped := false, shortfall := 0 } }

/-- The Commit Engine (R90). -/
structure CommitEngine where
  state : CommitState
  current : Option CurrentCommit
  last : LastResult
deriving DecidableEq, Repr

/-! ### The Input Receivers (chapter 7) -/

/-- The state of a frame bank (R116). -/
inductive BankState where
  | free | filling | ready | shown
deriving DecidableEq, Repr

/-- One input line held in a frame bank, by column; an unlisted column reads as code 0. -/
abbrev Row := Table Pixel

/-- A frame bank: its state, tag, malformed flag and codes by row; an unlisted row reads as code 0 throughout (R116). -/
structure FrameBank where
  state : BankState
  tag : Word32
  malformed : Bool
  rows : Table Row
deriving DecidableEq, Repr

/-- A FREE bank with tag 0 (R133). Its codes at reset: DESIGN CHOICE, unsafe (notes/assumptions/10.md). -/
def FrameBank.free : FrameBank := { state := .free, tag := 0, malformed := false, rows := Table.empty }

/-- A cleared SHOWN bank (R118). -/
def FrameBank.cleared : FrameBank := { state := .shown, tag := 0, malformed := false, rows := Table.empty }

/-- The receiver state (R119). -/
inductive ReceiverState where
  | lost | idle | receiving
deriving DecidableEq, Repr

/-- An Input Receiver with its three frame banks (R116, R119). -/
structure Receiver where
  state : ReceiverState
  lossCount : Nat
  lineCount : Nat
  banks : Vector FrameBank 3
deriving DecidableEq, Repr

/-- An Input Receiver after hard reset (R119, R133). -/
def Receiver.reset : Receiver :=
  { state := .lost, lossCount := 0, lineCount := 0
    banks := #v[FrameBank.cleared, FrameBank.free, FrameBank.free] }

/-! ### The Frame Barrier (chapter 8) -/

/-- The stall policy (R145). -/
inductive StallPolicy where
  | hold | dark
deriving DecidableEq, Repr

/-- What the barrier holds for one channel (R134). -/
structure BarrierChannel where
  enrolled : Bool
  policy : StallPolicy
  stalled : Bool
  lateCount : Nat
  dark : Bool
deriving DecidableEq, Repr

/-- The barrier's per-channel state after hard reset and RESTART (R134). -/
def BarrierChannel.reset : BarrierChannel :=
  { enrolled := false, policy := .hold, stalled := false, lateCount := 0, dark := false }

/-- The Frame Barrier (R134): κ is `reload`, ω `waitCount`, θ `timeout`, σ `stallLimit`, λ `lossLimit`. -/
structure Barrier where
  channels : Vector BarrierChannel 12
  reload : Nat
  cadence : Nat
  waitCount : Nat
  timeout : Nat
  stallLimit : Nat
  lossLimit : Nat
  skyFrame : Word32
deriving DecidableEq, Repr

/-- The Frame Barrier after hard reset and RESTART (R134). -/
def Barrier.reset : Barrier :=
  { channels := Vector.replicate 12 BarrierChannel.reset
    reload := 1, cadence := 0, waitCount := 0, timeout := 2, stallLimit := 8, lossLimit := 4, skyFrame := 0 }

/-! ### Output timing, outputs and fade (chapter 9) -/

/-- The timing source (R160). -/
inductive TimingSource where
  | internal | external
deriving DecidableEq, Repr

/-- The timing state (R160). -/
inductive TimingState where
  | free | acquire | locked | holdover
deriving DecidableEq, Repr

/-- The output state of one output (R171). -/
inductive OutputState where
  | disabled | starting | active | stopping
deriving DecidableEq, Repr

/-- The Output Timing Generator (R160, R171). Times are nanoseconds on `clock`, the model's own field: the time of the
latest timed event (DESIGN CHOICE, unsafe: notes/assumptions/7.md). `substituted` says that a substitute frame start was
taken since the last REF edge (R167; DEDUCED, safe: notes/assumptions/8.md). -/
structure Timing where
  source : TimingSource
  state : TimingState
  rate : Nat
  period : Nat
  intervals : List Nat
  lastEdge : Option Nat
  width : Nat
  height : Nat
  outputs : Vector OutputState 12
  lastFrameStart : Nat
  substituted : Bool
  clock : Nat
deriving DecidableEq, Repr

/-- The timing after hard reset (R160, R176). -/
def Timing.reset : Timing :=
  { source := .internal, state := .free, rate := 60, period := 16666666, intervals := [], lastEdge := none
    width := 1920, height := 1200, outputs := Vector.replicate 12 .disabled
    lastFrameStart := 0, substituted := false, clock := 0 }

/-- The Fade Unit (R173). -/
structure Fade where
  level : Nat
  target : Nat
  remaining : Nat
deriving DecidableEq, Repr

/-- The Fade Unit after hard reset and RESTART (R173). -/
def Fade.reset : Fade := { level := 0, target := 0, remaining := 0 }

/-! ### The Pixel Engines (chapter 4) -/

/-- The frame context of a frame in progress (R54). `contentOff` is set when RESTART is taken during the frame (R56). -/
structure FrameContext where
  bankIsB : Bool
  shown : Fin 3
  fade : Nat
  dark : Bool
  width : Nat
  height : Nat
  contentOff : Bool
deriving DecidableEq, Repr

/-- The three codes on a pixel output (R53). -/
structure OutPixel where
  r : Nat
  g : Nat
  b : Nat
deriving DecidableEq, Repr

/-- Code 0 in all three colours. -/
def OutPixel.zero : OutPixel := { r := 0, g := 0, b := 0 }

/-- A Pixel Engine: the context of the frame in progress, the next pixel to deliver, and the codes on its output. -/
structure PixelEngine where
  context : Option FrameContext
  x : Nat
  y : Nat
  out : OutPixel
deriving DecidableEq, Repr

/-- A Pixel Engine after hard reset: no frame in progress, code 0 on the output (R57; DESIGN CHOICE, unsafe:
notes/assumptions/18.md). -/
def PixelEngine.reset : PixelEngine := { context := none, x := 0, y := 0, out := OutPixel.zero }

/-! ### Messages (chapters 10 and 11) -/

/-- The part mode (R192). -/
inductive Mode where
  | setup | showing
deriving DecidableEq, Repr

/-- A complete message in a receive buffer: its KIND and PAYLOAD (R183). -/
structure Message where
  kind : Byte
  payload : List Byte
deriving DecidableEq, Repr

/-- The result codes (R204). -/
inductive ResultCode where
  | accepted | unknownKind | malformed | notPermitted | held | busy | badField | badIndex | stageFull | notFound
  | notArmed | nothingToAbort | outputsActive
deriving DecidableEq, Repr

/-- A set of channels: bit c for channel c (R190). -/
abbrev ChannelSet := BitVec 12

/-- A notice-enable mask (R194). -/
structure NoticeMask where
  release : Bool
  commit : Bool
  channel : Bool
  timing : Bool
deriving DecidableEq, Repr

/-- The global status record (R210 to R212). -/
structure GlobalStatus where
  mode : Mode
  source : TimingSource
  timingState : TimingState
  rate : Nat
  period : Nat
  width : Nat
  height : Nat
  floorMode : FloorMode
  phiSet : Nat
  tau : Nat
  phi : Nat
  commitState : CommitState
  last : LastResult
  occupancy : Nat
  recordCount : Nat
  mark : Option Mark
  skyFrame : Word32
  enrolled : ChannelSet
  stalled : ChannelSet
  dark : ChannelSet
  reload : Nat
  cadence : Nat
  timeout : Nat
  stallLimit : Nat
  lossLimit : Nat
  waitCount : Nat
  fade : Fade
deriving DecidableEq, Repr

/-- The status record of one channel (R213): each bank gives its state and tag. -/
structure ChannelStatus where
  channel : Channel
  receiver : ReceiverState
  lossCount : Nat
  banks : List (BankState × Word32)
  malformed : Option Bool
  output : OutputState
  barrier : BarrierChannel
  record : ChannelRecord
deriving DecidableEq, Repr

/-- The body of a response (R190 and the owning rules). -/
inductive Body where
  | empty
  | staged (units : Nat) (occupancy : Nat)
  | removed (count : Nat)
  | marked (count : Nat) (units : Nat)
  | engineBusy (state : CommitState) (link : Option Link)
  | abortedIn (state : CommitState)
  | enrollment (set : ChannelSet)
  | barrier (timeout : Nat) (stallLimit : Nat) (lossLimit : Nat)
  | cadence (reload : Nat) (counter : Nat)
  | fade (fade : Fade)
  | outputs (states : List OutputState)
  | timing (source : TimingSource) (state : TimingState) (period : Nat)
  | raster (width : Nat) (height : Nat)
  | mode (mode : Mode)
  | notices (mask : NoticeMask)
  | nodes (nodes : List Node)
  | seam (occupancy : Nat) (count : Nat) (id : SeamId) (record : Seam)
  | pool (occupancy : Nat) (count : Nat)
  | globalStatus (record : GlobalStatus)
  | channelStatus (record : ChannelStatus)
  | counters (first : Nat) (values : List Word32)
deriving DecidableEq, Repr

/-- A response: the KIND answered, the result code, the response flags and the body (R190). -/
structure Response where
  kind : Byte
  code : ResultCode
  clamped : Bool
  isPartial : Bool
  body : Body
deriving DecidableEq, Repr

/-- The outcome a tile RELEASE notice carries (R150). -/
inductive ReleaseOutcome where
  | swapped (tag : Option Word32)
  | heldLate
  | heldStalled
deriving DecidableEq, Repr

/-- Why a commit was aborted: ABORT_COMMIT with the link that sent it, or RESTART (R109). -/
inductive AbortCause where
  | abortCommit (link : Link)
  | restart
deriving DecidableEq, Repr

/-- The fields of a notice after its header, by kind and subkind (R109, R130, R144, R146, R149 to R151, R169). -/
inductive NoticeBody where
  | release (frame : Word32) (forced : Bool) (outcome : ReleaseOutcome)
  | summary (frame : Word32) (forced : Bool) (swapped : ChannelSet) (late : ChannelSet) (swapTaken : Bool)
  | armed (link : Link) (count : Nat) (floor : FloorPart)
  | failed (link : Link) (count : Nat) (error : CommitError) (item : Option Item)
  | aborted (link : Link) (count : Nat) (state : CommitState) (cause : AbortCause)
  | swapped (link : Link) (count : Nat) (frame : Word32) (floor : FloorPart)
  | inputLost (c : Channel) (tag : Option Word32) (readyHeld : Bool)
  | inputRestored (c : Channel) (tag : Word32)
  | stalled (c : Channel) (frame : Word32) (policy : StallPolicy)
  | rejoined (c : Channel) (tag : Word32)
  | skew (c : Channel) (tag : Word32) (reference : Channel) (referenceTag : Word32) (frame : Word32)
  | timing (state : TimingState) (previous : TimingState) (source : TimingSource) (period : Nat)
deriving DecidableEq, Repr

/-- The four notice kinds (R194). -/
inductive NoticeKind where
  | release | commit | channel | timing
deriving DecidableEq, Repr

/-- A notice: the channel of its header, its LOST flag, its merged count and its fields (R197, R200). -/
structure Notice where
  channel : Option Channel
  lost : Bool
  merged : Nat
  body : NoticeBody
deriving DecidableEq, Repr

/-- A message of an outbound queue (R195). -/
inductive OutMessage where
  | response (r : Response)
  | notice (n : Notice)
deriving DecidableEq, Repr

/-! ### The Link Ports (chapter 10) -/

/-- The line condition (R178). -/
inductive LineCondition where
  | isOpen | broken
deriving DecidableEq, Repr

/-- The receiver state of a link with the bytes it has kept (R181). -/
inductive Rx where
  | hunt
  | header (kept : List Byte)
  | payload (kind : Byte) (length : Nat) (taken : List Byte)
  | check (kind : Byte) (taken : List Byte) (low : Option Byte)
deriving DecidableEq, Repr

/-- A request in process: a staging request whose record is presented to the Staging Arbiter (R76, R187). -/
structure Presented where
  kind : Byte
  record : EditRecord
  clamped : Bool
deriving DecidableEq, Repr

/-- A Link Port (R178). `sent` counts the bytes of the head of the outbound queue already sent; `txLine` is what the
transmit line carried last (DESIGN CHOICE, unsafe: notes/assumptions/16.md). -/
structure Port where
  line : LineCondition
  rx : Rx
  buffer : List Message
  inProcess : Option Presented
  outbound : List OutMessage
  sent : Nat
  txLine : List Byte
  mask : NoticeMask
  lostFlag : Bool
deriving DecidableEq, Repr

/-- The notice-enable mask of a link after hard reset (R194). -/
def NoticeMask.reset (l : Link) : NoticeMask :=
  { release := true, commit := true, channel := true, timing := decide (l = SL) }

/-- A Link Port after hard reset (R178). -/
def Port.reset (l : Link) : Port :=
  { line := .isOpen, rx := .hunt, buffer := [], inProcess := none, outbound := [], sent := 0, txLine := []
    mask := NoticeMask.reset l, lostFlag := false }

/-! ### The whole part -/

/-- The state of the DS12. `resetHeld` is the RESET_N pin held low (R201); `pending` is the queue of waiting commands. -/
structure State where
  resetHeld : Bool
  mode : Mode
  tables : TableStore
  staging : Staging
  engine : CommitEngine
  receivers : Vector Receiver 12
  barrier : Barrier
  timing : Timing
  fade : Fade
  engines : Vector PixelEngine 12
  counters : Vector Word32 157
  ports : Vector Port 13
  pending : List Instr
deriving DecidableEq, Repr

/-- The part after hard reset, with no command waiting (R15, R88, R112, R133, R158, R176, R178, R192, R206). The values that
no rule gives are DESIGN CHOICE, unsafe (notes/assumptions/23.md). -/
def State.reset : State :=
  { resetHeld := false
    mode := .setup
    tables := { bankA := Bank.dark, bankB := Bank.dark, activeIsB := false }
    staging := Staging.reset
    engine := { state := .idle, current := none, last := LastResult.reset }
    receivers := Vector.replicate 12 Receiver.reset
    barrier := Barrier.reset
    timing := Timing.reset
    fade := Fade.reset
    engines := Vector.replicate 12 PixelEngine.reset
    counters := Vector.replicate 157 0
    ports := Vector.ofFn Port.reset
    pending := [] }

/-- The faults of the machine. The spec gives the part no condition in which it stops, so there is none: no command
raises a fault (DEDUCED, safe: nothing is cut off; notes/assumptions/26.md). -/
inductive Fault where
deriving DecidableEq, Repr

/-- The refusals of the machine. -/
inductive Refusal where
  /-- Raised by an arm of `exec` that has no meaning yet, by its row's mnemonic. Safe: the machine stops. -/
  | notModelled (mnemonic : String)
deriving DecidableEq, Repr

end Sys2Proof.Machine
end

