-- ==== Sys2Proof/Machine/Tables.lean ====
section
/-! DEFINITION. The sparse tables and the named reads and writes of the table banks (R1 to R14, R18 to R20). -/

namespace Sys2Proof.Machine

/-! ### Fixed runs of like things -/

/-- Put a value at one place. -/
def put {α : Type} {n : Nat} (v : Vector α n) (i : Fin n) (x : α) : Vector α n := v.set i.val x i.isLt

/-- Change the value at one place. -/
def upd {α : Type} {n : Nat} (v : Vector α n) (i : Fin n) (f : α → α) : Vector α n := put v i (f v[i])

/-- Change the value at every place. -/
def updAll {α : Type} {n : Nat} (v : Vector α n) (f : Fin n → α → α) : Vector α n := Vector.ofFn fun i => f i v[i]

/-- The links, TL0 to TL11 and SL. -/
def links : List Link := [0, 1, 2, 3, 4, 5, 6, 7, 8, 9, 10, 11, 12]

/-- The channels, in ascending order. -/
def channels : List Channel := [0, 1, 2, 3, 4, 5, 6, 7, 8, 9, 10, 11]

/-! ### Sparse tables -/

variable {α : Type}

/-- The value listed for an address, or the default. -/
def getEntry (d : Nat → α) : List (Nat × α) → Nat → α
  | [], i => d i
  | (k, v) :: t, i => if k = i then v else getEntry d t i

/-- What address `i` reads as. -/
def Table.get (d : Nat → α) (t : Table α) (i : Nat) : α := getEntry d t.entries i

/-- List an address in its place. -/
def insertEntry (i : Nat) (v : α) : List (Nat × α) → List (Nat × α)
  | [] => [(i, v)]
  | (k, w) :: t => if i < k then (i, v) :: (k, w) :: t else (k, w) :: insertEntry i v t

/-- The entries at other addresses than `i`. -/
def eraseEntry (i : Nat) (l : List (Nat × α)) : List (Nat × α) := l.filter fun e => decide (e.1 ≠ i)

/-- Write address `i`. Writing what an unlisted address reads as removes the entry. -/
def Table.set [DecidableEq α] (d : Nat → α) (t : Table α) (i : Nat) (v : α) : Table α :=
  if v = d i then ⟨eraseEntry i t.entries⟩ else ⟨insertEntry i v (eraseEntry i t.entries)⟩

/-- Write a run of addresses from `start` on. -/
def Table.setRun [DecidableEq α] (d : Nat → α) (t : Table α) (start : Nat) : List α → Table α
  | [] => t
  | v :: vs => (t.set d start v).setRun d (start + 1) vs

/-- Change every listed entry. -/
def Table.mapVals [DecidableEq α] (d : Nat → α) (f : Nat → α → α) (t : Table α) : Table α :=
  (t.entries.map Prod.fst).foldl (fun acc k => acc.set d k (f k (t.get d k))) t

/-- The canonical form: addresses strictly rising, no entry equal to the default. -/
def Table.wf [DecidableEq α] (d : Nat → α) (t : Table α) : Bool :=
  decide ((t.entries.map Prod.fst).Pairwise (· < ·)) && t.entries.all fun e => decide (e.2 ≠ d e.1)

/-! ### What unlisted entries read as -/

/-- An unlisted node is the dark default (R15). -/
def darkNode : Nat → Node := fun _ => Node.dark

/-- The default input LUT (R11). -/
def inputDefault : Nat → Nat := fun c => 64 * c + c / 16

/-- The default output LUT (R12). -/
def outputDefault : Nat → Nat := fun e => if e = 1024 then 1023 else e

/-! ### Reads and writes of one bank -/

/-- Node `i` of channel `c` (R4). -/
def Bank.node (b : Bank) (c : Channel) (i : Nat) : Node := b.grids[c].get darkNode i

/-- Write node `i` of channel `c`. -/
def Bank.setNode (b : Bank) (c : Channel) (i : Nat) (n : Node) : Bank :=
  { b with grids := upd b.grids c fun g => g.set darkNode i n }

/-- Change every node of every channel. An unlisted node is the dark default, so `f` must keep that default. -/
def Bank.mapNodes (b : Bank) (f : Channel → Node → Node) : Bank :=
  { b with grids := updAll b.grids fun c g => g.mapVals darkNode fun _ n => f c n }

/-- The nodes whose VOID flag is clear, each with its channel (R40). Every unlisted node is VOID. -/
def Bank.liveNodes (b : Bank) : List (Channel × Node) :=
  channels.flatMap fun c => (b.grids[c].entries.map fun e => (c, e.2)).filter fun p => !p.2.isVoid

/-- Input LUT entry `e` (R11). -/
def Bank.inputEntry (b : Bank) (e : Nat) : Nat := b.inputLut.get inputDefault e

/-- The place of a colour within a channel's output LUTs (R204). -/
def Colour.index : Colour → Fin 3
  | .r => 0
  | .g => 1
  | .b => 2

/-- The place of the output LUT of channel `c` in colour `k` (R12). -/
def lutPlace (c : Channel) (k : Colour) : Fin 36 := ⟨3 * c.val + k.index.val, by have := c.isLt; have := k.index.isLt; omega⟩

/-- Entry `e` of the output LUT of channel `c` in colour `k` (R12). -/
def Bank.outputEntry (b : Bank) (c : Channel) (k : Colour) (e : Nat) : Nat :=
  b.outputLuts[lutPlace c k].get outputDefault e

/-- The gain of a colour (R9). -/
def ChannelRecord.gain (r : ChannelRecord) : Colour → Nat
  | .r => r.gainR
  | .g => r.gainG
  | .b => r.gainB

/-- One point of one present seam: its seam id and index, and each member channel with its entry. -/
structure PointAt where
  seam : Nat
  point : Nat
  members : List (Channel × MemberEntry)
deriving DecidableEq, Repr

/-- The points of one seam, in point-list order. -/
def Seam.pointsAt (s : Seam) (id : Nat) : List PointAt :=
  s.points.zipIdx.map fun p => { seam := id, point := p.2, members := s.members.zip p.1 }

/-- The points of every present seam, in ascending seam id and in point-list order (R25, R26, R30). -/
def Bank.points (b : Bank) : List PointAt :=
  b.seams.toList.zipIdx.flatMap fun e => match e.1 with
    | none => []
    | some s => s.pointsAt e.2

/-- The pool occupancy: the sum of the point counts of the present seams (R20). -/
def Bank.poolOccupancy (b : Bank) : Nat :=
  (b.seams.toList.map fun e => match e with
    | none => 0
    | some s => s.points.length).sum

/-- The present seam count (R20). -/
def Bank.seamCount (b : Bank) : Nat := (b.seams.toList.filter Option.isSome).length

/-- The canonical form of every sparse table of a bank. -/
def Bank.wf (b : Bank) : Bool :=
  b.grids.toList.all (fun g => g.wf darkNode) && b.inputLut.wf inputDefault &&
    b.outputLuts.toList.all fun t => t.wf outputDefault

/-! ### The two banks -/

/-- The bank designated ACTIVE (R1). -/
def TableStore.active (t : TableStore) : Bank := if t.activeIsB then t.bankB else t.bankA

/-- The bank designated SHADOW (R1). -/
def TableStore.shadow (t : TableStore) : Bank := if t.activeIsB then t.bankA else t.bankB

/-- Write the SHADOW bank. -/
def TableStore.setShadow (t : TableStore) (b : Bank) : TableStore :=
  if t.activeIsB then { t with bankA := b } else { t with bankB := b }

/-- Exchange the designations (R3, R103). -/
def TableStore.swap (t : TableStore) : TableStore := { t with activeIsB := !t.activeIsB }

/-- The bank a frame context names. -/
def TableStore.bank (t : TableStore) (isB : Bool) : Bank := if isB then t.bankB else t.bankA

/-- Hard reset: the dark defaults become ACTIVE and the other bank is left as SHADOW (R15). The bank that becomes ACTIVE is
always bank A: R15 leaves the other bank designated SHADOW, R103 says that roles change at hard reset, and neither says
which bank is which. With B ACTIVE before, the STALE SHADOW is the old committed sky (DESIGN CHOICE, unsafe:
notes/assumptions/27.md). -/
def TableStore.hardReset (t : TableStore) : TableStore := { bankA := Bank.dark, bankB := t.bankB, activeIsB := false }

/-! ### Frame banks -/

/-- Code 0 in all three colours. -/
def Pixel.black : Pixel := { r := 0, g := 0, b := 0 }

/-- An unlisted pixel reads as code 0. -/
def blackPixel : Nat → Pixel := fun _ => Pixel.black

/-- An unlisted row reads as code 0 throughout. -/
def blackRow : Nat → Row := fun _ => Table.empty

/-- The pixel at a column and row of a frame bank (R116). -/
def FrameBank.pixel (f : FrameBank) (column row : Nat) : Pixel := (f.rows.get blackRow row).get blackPixel column

/-- A row with its first pixels overwritten; the positions after them keep what they held (R121). -/
def rowWrite (old : Row) (ps : List Pixel) : Row :=
  ⟨(ps.zipIdx.filterMap fun p => if p.1 = Pixel.black then none else some (p.2, p.1)) ++
    old.entries.filter fun e => decide (ps.length ≤ e.1)⟩

/-- Write pixels into a row of a frame bank (R121). -/
def FrameBank.writeRow (f : FrameBank) (row : Nat) (ps : List Pixel) : FrameBank :=
  { f with rows := f.rows.set blackRow row (rowWrite (f.rows.get blackRow row) ps) }

/-- The canonical form of a frame bank's codes. -/
def FrameBank.wf (f : FrameBank) : Bool :=
  f.rows.wf blackRow && f.rows.entries.all fun e => Table.wf blackPixel e.2

/-- The code of one colour of a pixel. -/
def Pixel.code (p : Pixel) : Colour → Nat
  | .r => p.r.val
  | .g => p.g.val
  | .b => p.b.val

end Sys2Proof.Machine
end

