-- ==== Sys2Proof/Machine/Ops.lean ====
section
/-! DEFINITION. The named operations over the part that the commands share: counting, handing responses and notices to the
ports, taking a request from a receive buffer, and the roles of the links. -/

namespace Sys2Proof.Machine

/-- The outcome of a command. -/
abbrev Out := Host.Outcome State Fault Refusal

/-- An event is taken only while RESET_N is high; while hard reset holds, no block takes an event (R201). -/
def takeEvent (s : State) (act : State → State) : Out := .next (if s.resetHeld then s else act s)

/-! ### Counters (R205) -/

/-- Counter 0, releases. -/
def Counter.releases : CounterIx := 0
/-- Counter 1, forced releases. -/
def Counter.forcedReleases : CounterIx := 1
/-- Counter 2, commits done. -/
def Counter.commitsDone : CounterIx := 2
/-- Counter 3, commits failed. -/
def Counter.commitsFailed : CounterIx := 3
/-- Counter 4, commits aborted. -/
def Counter.commitsAborted : CounterIx := 4
/-- Counter 5, timing lock losses. -/
def Counter.lockLosses : CounterIx := 5
/-- Counter 6, output frame starts. -/
def Counter.frameStarts : CounterIx := 6
/-- Counter 7, skew releases. -/
def Counter.skewReleases : CounterIx := 7
/-- Counter 8, staging refusals. -/
def Counter.stagingRefusals : CounterIx := 8

/-- Counter k of a channel: 0 frames completed, 1 truncated, 2 malformed, 3 replaced, 4 lates, 5 stalls entered, 6 input
losses, 7 skews. -/
def Counter.ofChannel (c : Channel) (k : Fin 8) : CounterIx :=
  ⟨9 + 8 * c.val + k.val, by have := c.isLt; have := k.isLt; omega⟩

/-- Counter k of a link: 0 CRC errors, 1 framing errors, 2 overruns, 3 notices lost. -/
def Counter.ofLink (l : Link) (k : Fin 4) : CounterIx :=
  ⟨105 + 4 * l.val + k.val, by have := l.isLt; have := k.isLt; omega⟩

/-- A counter goes up by 1, wrapping (R205). -/
def bump (i : CounterIx) (s : State) : State := { s with counters := upd s.counters i (· + 1) }

/-- Several counters go up by 1 each, one after another. -/
def bumpAll : List CounterIx → State → State
  | [], s => s
  | i :: is, s => bumpAll is (bump i s)

/-! ### Roles of the links (R191) -/

/-- The channel of a tile link; none for SL. -/
def tileOf (l : Link) : Option Channel := if h : l.val < 12 then some ⟨l.val, h⟩ else none

/-- The tile link of a channel. -/
def tileLink (c : Channel) : Link := ⟨c.val, by have := c.isLt; omega⟩

/-- The link is a tile link, and not that of channel `c`. -/
def foreignTile (l : Link) (c : Channel) : Bool := decide (l ≠ SL ∧ l.val ≠ c.val)

/-- The link is a tile link and the mode is SHOW: its edits are HELD (R192). -/
def heldTile (l : Link) (s : State) : Bool := decide (l ≠ SL ∧ s.mode = .showing)

/-! ### Outbound queues (R190, R195, R197 to R199) -/

/-- A response waits or is being sent. -/
def OutMessage.isResponse : OutMessage → Bool
  | .response _ => true
  | .notice _ => false

/-- A notice is queued or being sent. -/
def OutMessage.isNotice (m : OutMessage) : Bool := !m.isResponse

/-- The kind of a notice (R200). -/
def NoticeBody.kind : NoticeBody → NoticeKind
  | .release _ _ _ | .summary _ _ _ _ _ => .release
  | .armed _ _ _ | .failed _ _ _ _ | .aborted _ _ _ _ | .swapped _ _ _ _ => .commit
  | .inputLost _ _ _ | .inputRestored _ _ | .stalled _ _ _ | .rejoined _ _ | .skew _ _ _ _ _ => .channel
  | .timing _ _ _ _ => .timing

/-- The channel of a notice handed to the port of a link (R197). -/
def noticeChannel (l : Link) : NoticeBody → Option Channel
  | .release _ _ _ => tileOf l
  | .inputLost c _ _ | .inputRestored c _ | .stalled c _ _ | .rejoined c _ | .skew c _ _ _ _ => some c
  | .summary _ _ _ _ _ | .armed _ _ _ | .failed _ _ _ _ | .aborted _ _ _ _ | .swapped _ _ _ _
  | .timing _ _ _ _ => none

/-- The mask admits a kind of notice (R194). -/
def NoticeMask.admits (m : NoticeMask) : NoticeKind → Bool
  | .release => m.release
  | .commit => m.commit
  | .channel => m.channel
  | .timing => m.timing

/-- Replace the last element of a list that `p` accepts. -/
def replaceLast {α : Type} (p : α → Bool) (f : α → α) : List α → Option (List α)
  | [] => none
  | a :: as => match replaceLast p f as with
    | some as' => some (a :: as')
    | none => if p a then some (f a :: as) else none

/-- A queued message is a notice of this kind and channel (R197). -/
def OutMessage.matchesNotice (k : NoticeKind) (ch : Option Channel) : OutMessage → Bool
  | .response _ => false
  | .notice n => decide (n.body.kind = k ∧ n.channel = ch)

/-- The notice that takes the place of an older one (R198). -/
def coalesceInto (ch : Option Channel) (lost : Bool) (b : NoticeBody) : OutMessage → OutMessage
  | .response r => .response r
  | .notice n => .notice { channel := ch, lost := n.lost || lost, merged := min 65535 (n.merged + 1), body := b }

/-- The outbound queue with a notice coalesced into the newest one of its kind and channel that is not yet being sent,
if there is one (R198). -/
def Port.coalesce (p : Port) (ch : Option Channel) (b : NoticeBody) : Option (List OutMessage) :=
  match p.outbound with
  | [] => none
  | m :: ms =>
    if 0 < p.sent then
      (replaceLast (OutMessage.matchesNotice b.kind ch) (coalesceInto ch p.lostFlag b) ms).map (m :: ·)
    else replaceLast (OutMessage.matchesNotice b.kind ch) (coalesceInto ch p.lostFlag b) (m :: ms)

/-- A notice is handed to a port: filtered, appended, coalesced or dropped. The flag says that it was dropped (R197). -/
def Port.hand (p : Port) (ch : Option Channel) (b : NoticeBody) : Port × Bool :=
  if !p.mask.admits b.kind then (p, false)
  else if (p.outbound.filter OutMessage.isNotice).length < Config.maxNotices then
    ({ p with outbound := p.outbound ++ [.notice { channel := ch, lost := p.lostFlag, merged := 0, body := b }],
              lostFlag := false }, false)
  else match p.coalesce ch b with
    | some q => ({ p with outbound := q, lostFlag := false }, false)
    | none => ({ p with lostFlag := true }, true)

/-- A notice is handed to the port of a link; a drop is counted (R197 to R199). -/
def hand (l : Link) (b : NoticeBody) (s : State) : State :=
  let r := s.ports[l].hand (noticeChannel l b) b
  let s' := { s with ports := put s.ports l r.1 }
  if r.2 then bump (Counter.ofLink l 3) s' else s'

/-- Notices are handed one after another. -/
def handAll : List (Link × NoticeBody) → State → State
  | [], s => s
  | n :: ns, s => handAll ns (hand n.1 n.2 s)

/-- The two ports a CHANNEL notice goes to: the channel's tile link and SL (R130, R144, R146, R149). -/
def channelHands (c : Channel) (b : NoticeBody) : List (Link × NoticeBody) := [(tileLink c, b), (SL, b)]

/-- The ports a COMMIT notice goes to: the committing link and SL, once where they are one (R109). -/
def commitHands (l : Link) (b : NoticeBody) : List (Link × NoticeBody) :=
  if l = SL then [(SL, b)] else [(l, b), (SL, b)]

/-- A response is handed to the outbound queue of its link, behind the messages already queued (R190). -/
def respond (l : Link) (r : Response) (s : State) : State :=
  { s with ports := upd s.ports l fun p => { p with outbound := p.outbound ++ [.response r] } }

/-- A request is refused, with an empty body (R190). -/
def refuse (l : Link) (kind : Byte) (code : ResultCode) (s : State) : State :=
  respond l { kind := kind, code := code, clamped := false, isPartial := false, body := .empty } s

/-- A request is accepted with a body. -/
def accept (l : Link) (kind : Byte) (body : Body) (s : State) : State :=
  respond l { kind := kind, code := .accepted, clamped := false, isPartial := false, body := body } s

/-- A request with some value clamped, or none, is accepted with a body (R189). -/
def acceptClamped (l : Link) (kind : Byte) (clamped : Bool) (body : Body) (s : State) : State :=
  respond l { kind := kind, code := .accepted, clamped := clamped, isPartial := false, body := body } s

/-- The port can take a request: none is in process and no response waits (R187). A response being sent still waits
(R195; DEDUCED, safe: notes/assumptions/16.md). -/
def Port.canTake (p : Port) : Bool := p.inProcess.isNone && !p.outbound.any OutMessage.isResponse

/-- The oldest request, removed from the receive buffer (R187). -/
def dropOldest (l : Link) (s : State) : State :=
  { s with ports := upd s.ports l fun p => { p with buffer := p.buffer.tail } }

/-- The port of a link takes the oldest request of its receive buffer if it can take one and its KIND is accepted by
`isKind`; the request is then carried out. Otherwise no request is taken (R187, R188; DESIGN CHOICE, safe:
notes/assumptions/1.md). -/
def takeRequest (l : Link) (isKind : Byte → Bool) (act : Message → State → State) (s : State) : Out :=
  takeEvent s fun s =>
    if s.ports[l].canTake then
      match s.ports[l].buffer with
      | [] => s
      | m :: _ => if isKind m.kind then act m (dropOldest l s) else s
    else s

/-- A staging request that passed the Request Unit's checks presents its record and stays in process (R76). -/
def present (l : Link) (kind : Byte) (e : Edit) (clamped : Bool) (s : State) : State :=
  { s with ports := upd s.ports l fun p =>
      { p with inProcess := some { kind := kind, record := { origin := l, edit := e }, clamped := clamped } } }

/-! ### Banks -/

/-- The bank READ_NODES and READ_SEAM address: ACTIVE, or SHADOW while the engine is ARMED (R16, R35). -/
def readBank (shadow : Bool) (s : State) : Option Bank :=
  if shadow then (if s.engine.state = .armed then some s.tables.shadow else none) else some s.tables.active

end Sys2Proof.Machine
end

