-- ==== Sys2Proof/Machine/Operands.lean ====
section
/-! DEFINITION. The operand forms of the requests: the kind codes and the payload layouts of R204, with the clamps of R189. -/

namespace Sys2Proof.Machine

/-! ### Kind codes (R204) -/

/-- STAGE_NODES. -/
def Kind.stageNodes : Byte := 0x20#8
/-- STAGE_SEAM. -/
def Kind.stageSeam : Byte := 0x21#8
/-- DROP_SEAM. -/
def Kind.dropSeam : Byte := 0x22#8
/-- STAGE_CHANNEL. -/
def Kind.stageChannel : Byte := 0x23#8
/-- STAGE_FLOOR. -/
def Kind.stageFloor : Byte := 0x24#8
/-- STAGE_LUT. -/
def Kind.stageLut : Byte := 0x25#8
/-- DISCARD. -/
def Kind.discard : Byte := 0x26#8
/-- COMMIT. -/
def Kind.commit : Byte := 0x30#8
/-- ABORT_COMMIT. -/
def Kind.abortCommit : Byte := 0x31#8
/-- ENROLL. -/
def Kind.enroll : Byte := 0x40#8
/-- WITHDRAW. -/
def Kind.withdraw : Byte := 0x41#8
/-- SET_BARRIER. -/
def Kind.setBarrier : Byte := 0x42#8
/-- SET_CADENCE. -/
def Kind.setCadence : Byte := 0x43#8
/-- FADE. -/
def Kind.fade : Byte := 0x50#8
/-- OUTPUT_ON. -/
def Kind.outputOn : Byte := 0x51#8
/-- OUTPUT_OFF. -/
def Kind.outputOff : Byte := 0x52#8
/-- SET_TIMING. -/
def Kind.setTiming : Byte := 0x53#8
/-- SET_RASTER. -/
def Kind.setRaster : Byte := 0x54#8
/-- SET_MODE. -/
def Kind.setMode : Byte := 0x60#8
/-- RESTART. -/
def Kind.restart : Byte := 0x61#8
/-- SET_NOTICES. -/
def Kind.setNotices : Byte := 0x62#8
/-- READ_NODES. -/
def Kind.readNodes : Byte := 0x70#8
/-- READ_SEAM. -/
def Kind.readSeam : Byte := 0x71#8
/-- READ_STATUS. -/
def Kind.readStatus : Byte := 0x72#8
/-- READ_COUNTER. -/
def Kind.readCounter : Byte := 0x73#8

/-- The 25 request kinds (R188, R204). -/
def requestKinds : List Byte :=
  [Kind.stageNodes, Kind.stageSeam, Kind.dropSeam, Kind.stageChannel, Kind.stageFloor, Kind.stageLut, Kind.discard,
   Kind.commit, Kind.abortCommit, Kind.enroll, Kind.withdraw, Kind.setBarrier, Kind.setCadence, Kind.fade,
   Kind.outputOn, Kind.outputOff, Kind.setTiming, Kind.setRaster, Kind.setMode, Kind.restart, Kind.setNotices,
   Kind.readNodes, Kind.readSeam, Kind.readStatus, Kind.readCounter]

/-! ### Numbers that name things -/

/-- A channel number as sent. -/
def chan? (n : Nat) : Option Channel := if h : n < 12 then some ⟨n, h⟩ else none

/-- A seam id as sent. -/
def seam? (n : Nat) : Option SeamId := if h : n < 48 then some ⟨n, h⟩ else none

/-- A link number as sent. -/
def link? (n : Nat) : Option Link := if h : n < 13 then some ⟨n, h⟩ else none

/-- A 2-byte channel mask as sent names a channel. -/
def maskNames (m : Nat) (c : Channel) : Bool := m.testBit c.val

/-- The mask names no channel, or names a bit above 11 (R193). -/
def badChannelMask (m : Nat) : Bool := decide (m = 0 ∨ 4096 ≤ m)

/-! ### NODES (R8, R204) -/

/-- The payload length STAGE_NODES requires. -/
def stageNodesLength (p : List Byte) : Nat := 5 + 8 * u8 p 3

/-- The field mask of STAGE_NODES. -/
def nodeMaskOf (p : List Byte) : NodeMask :=
  { position := bitAt p 4 0, isVoid := bitAt p 4 1, baseWeight := bitAt p 4 2 }

/-- The field mask selects something. -/
def NodeMask.selects (m : NodeMask) : Bool := m.position || m.isVoid || m.baseWeight

/-- The node entry at offset `o`; a selected base weight above 4096 is taken as 4096 (R8, R189). -/
def nodeEntryAt (p : List Byte) (m : NodeMask) (o : Nat) : NodeEntry :=
  { u := s16 p o, v := s16 p (o + 2), isVoid := bitAt p (o + 6) 0
    baseWeight := if m.baseWeight then min 4096 (u16 p (o + 4)) else u16 p (o + 4) }

/-- The node entries of STAGE_NODES. -/
def nodeEntriesOf (p : List Byte) : List NodeEntry :=
  (List.range (u8 p 3)).map fun i => nodeEntryAt p (nodeMaskOf p) (5 + 8 * i)

/-- Some selected base weight of STAGE_NODES lies above 4096. -/
def nodesClamped (p : List Byte) : Bool :=
  (nodeMaskOf p).baseWeight && (List.range (u8 p 3)).any fun i => decide (4096 < u16 p (5 + 8 * i + 4))

/-! ### SEAM (R21, R204) -/

/-- The payload length STAGE_SEAM requires: member count m at byte 1, point count at byte 2. -/
def stageSeamLength (p : List Byte) : Nat := 3 + u8 p 1 + 4 * u8 p 2 * u8 p 1

/-- The member numbers of STAGE_SEAM as sent. -/
def seamMembersOf (p : List Byte) : List Nat := (List.range (u8 p 1)).map fun j => u8 p (3 + j)

/-- The points of STAGE_SEAM. -/
def seamPointsOf (p : List Byte) : List (List MemberEntry) :=
  (List.range (u8 p 2)).map fun i => (List.range (u8 p 1)).map fun j =>
    let o := 3 + u8 p 1 + 4 * (i * u8 p 1 + j)
    { node := u16 p o, coverage := u16 p (o + 2) }

/-- The member list of STAGE_SEAM, if every number names a channel and no two are equal. -/
def membersOf? (ns : List Nat) : Option (List Channel) :=
  if ns.Nodup then ns.mapM chan? else none

/-! ### CHANNEL (R9, R204) -/

/-- The field mask of STAGE_CHANNEL. -/
def channelMaskOf (p : List Byte) : ChannelMask := { raster := bitAt p 1 0, beta := bitAt p 1 1, gains := bitAt p 1 2 }

/-- The field mask selects something. -/
def ChannelMask.selects (m : ChannelMask) : Bool := m.raster || m.beta || m.gains

/-- The values of STAGE_CHANNEL, a selected β or gain clamped (R9, R189). -/
def channelValuesOf (p : List Byte) : ChannelRecord :=
  let m := channelMaskOf p
  let gain := fun o => if m.gains then min 4096 (u16 p o) else u16 p o
  { width := u16 p 2, height := u16 p 4
    beta := if m.beta then min 4095 (u16 p 6) else u16 p 6
    gainR := gain 8, gainG := gain 10, gainB := gain 12 }

/-- Some selected value of STAGE_CHANNEL lies above its ceiling. -/
def channelClamped (p : List Byte) : Bool :=
  let m := channelMaskOf p
  (m.beta && decide (4095 < u16 p 6)) ||
    (m.gains && decide (4096 < u16 p 8 ∨ 4096 < u16 p 10 ∨ 4096 < u16 p 12))

/-- An input raster in range (R9). -/
def inputRasterOk (w h : Nat) : Bool := decide (256 ≤ w ∧ w ≤ 2560 ∧ 256 ≤ h ∧ h ≤ 1600)

/-! ### FLOOR (R14, R204) -/

/-- The field mask of STAGE_FLOOR. -/
def floorMaskOf (p : List Byte) : FloorMask := { mode := bitAt p 0 0, phiSet := bitAt p 0 1, tau := bitAt p 0 2 }

/-- The field mask selects something. -/
def FloorMask.selects (m : FloorMask) : Bool := m.mode || m.phiSet || m.tau

/-- A floor mode as sent (R193). -/
def floorMode? : Nat → Option FloorMode
  | 0 => some .fixed
  | 1 => some .auto
  | _ => none

/-- The FLOOR record of STAGE_FLOOR, its selected values clamped; none for a selected mode that is neither 0 nor 1. -/
def floorEditOf? (p : List Byte) : Option Edit :=
  let m := floorMaskOf p
  let phi := if m.phiSet then min 16383 (u16 p 2) else u16 p 2
  let tau := if m.tau then min 64 (u8 p 4) else u8 p 4
  if m.mode then (floorMode? (u8 p 1)).map fun f => .floor m f phi tau else some (.floor m .fixed phi tau)

/-- Some selected value of STAGE_FLOOR lies above its ceiling. -/
def floorClampedOf (p : List Byte) : Bool :=
  let m := floorMaskOf p
  (m.phiSet && decide (16383 < u16 p 2)) || (m.tau && decide (64 < u8 p 4))

/-! ### LUT (R13, R204) -/

/-- The payload length STAGE_LUT requires. -/
def stageLutLength (p : List Byte) : Nat := 5 + 2 * u16 p 3

/-- A LUT target as sent: 0 the input LUT, 1 + 3c + colour an output LUT; none for a channel of 12 or above. -/
def lutTarget? (n : Nat) : Option LutTarget :=
  match n with
  | 0 => some .input
  | k + 1 => (chan? (k / 3)).map fun c => .output c (if k % 3 = 0 then .r else if k % 3 = 1 then .g else .b)

/-- Entries of the target's table (R11, R12). -/
def LutTarget.size : LutTarget → Nat
  | .input => 1024
  | .output _ _ => 1025

/-- The values of STAGE_LUT; an output LUT value above 1023 is taken as 1023 (R13, R189). -/
def lutValuesOf (t : LutTarget) (p : List Byte) : List Nat :=
  (List.range (u16 p 3)).map fun i => match t with
    | .input => u16 p (5 + 2 * i)
    | .output _ _ => min 1023 (u16 p (5 + 2 * i))

/-- Some output LUT value lies above 1023. -/
def lutClamped (t : LutTarget) (p : List Byte) : Bool := match t with
  | .input => false
  | .output _ _ => (List.range (u16 p 3)).any fun i => decide (1023 < u16 p (5 + 2 * i))

/-! ### Units (R74) -/

/-- The unit size of an edit record. -/
def Edit.units : Edit → Nat
  | .nodes _ _ _ es => 1 + es.length
  | .seam _ r => 1 + r.points.length * r.members.length
  | .seamDrop _ => 1
  | .channel _ _ _ => 2
  | .floor _ _ _ _ => 1
  | .lut _ _ vs => 1 + vs.length

end Sys2Proof.Machine
end

