-- ==== Sys2Proof/Machine/Flags.lean ====
section
/-! DEFINITION. The codes, flags and layouts of what the part sends: result codes, enumerated fields, response and notice
headers and bodies (R190, R200, R204, R210 to R213). -/

namespace Sys2Proof.Machine

/-! ### Enumerated fields -/

/-- A flag, 0 clear and 1 set (R190). -/
def flagByte (b : Bool) : List Byte := leBytes 1 (if b then 1 else 0)

/-- An absent value is sent as the all-ones value of its width of `n` bytes (R190). -/
def leOption (n : Nat) : Option Nat → List Byte
  | some v => leBytes n v
  | none => leBytes n (256 ^ n - 1)

/-- Result codes (R204). -/
def ResultCode.code : ResultCode → Nat
  | .accepted => 0
  | .unknownKind => 1
  | .malformed => 2
  | .notPermitted => 3
  | .held => 4
  | .busy => 5
  | .badField => 6
  | .badIndex => 7
  | .stageFull => 8
  | .notFound => 9
  | .notArmed => 10
  | .nothingToAbort => 11
  | .outputsActive => 12

/-- Mode codes (R210). -/
def Mode.code : Mode → Nat
  | .setup => 0
  | .showing => 1

/-- Timing source codes (R210). -/
def TimingSource.code : TimingSource → Nat
  | .internal => 0
  | .external => 1

/-- Timing state codes (R210). -/
def TimingState.code : TimingState → Nat
  | .free => 0
  | .acquire => 1
  | .locked => 2
  | .holdover => 3

/-- Floor mode codes (R210). -/
def FloorMode.code : FloorMode → Nat
  | .fixed => 0
  | .auto => 1

/-- Commit state codes (R211). -/
def CommitState.code : CommitState → Nat
  | .idle => 0
  | .applying => 1
  | .checking => 2
  | .normalizing => 3
  | .flooring => 4
  | .lifting => 5
  | .armed => 6

/-- Last result codes (R211). -/
def CommitResult.code : CommitResult → Nat
  | .none => 0
  | .done => 1
  | .failed => 2
  | .aborted => 3

/-- Error codes of a commit (R211). -/
def CommitError.code : CommitError → Nat
  | .none => 0
  | .pointPoolFull => 1
  | .seamVoidNode => 2
  | .nodeConflict => 3
  | .zeroCoverage => 4

/-- Receiver state codes (R213). -/
def ReceiverState.code : ReceiverState → Nat
  | .lost => 0
  | .idle => 1
  | .receiving => 2

/-- Bank state codes (R213). -/
def BankState.code : BankState → Nat
  | .free => 0
  | .filling => 1
  | .ready => 2
  | .shown => 3

/-- Output state codes (R213). -/
def OutputState.code : OutputState → Nat
  | .disabled => 0
  | .starting => 1
  | .active => 2
  | .stopping => 3

/-- Stall policy codes (R213). -/
def StallPolicy.code : StallPolicy → Nat
  | .hold => 0
  | .dark => 1

/-- The notice-enable mask as its byte (R194). -/
def NoticeMask.code (m : NoticeMask) : Nat :=
  (if m.release then 1 else 0) + (if m.commit then 2 else 0) + (if m.channel then 4 else 0) + (if m.timing then 8 else 0)

/-- The two parts of an item: 1 byte and 2 bytes (R211). -/
def itemBytes : Option Item → List Byte
  | none => leOption 1 none ++ leOption 2 none
  | some (.point s p) => leBytes 1 s ++ leBytes 2 p
  | some (.node c n) => leBytes 1 c.val ++ leBytes 2 n

/-- The KIND of a notice (R204). -/
def NoticeKind.code : NoticeKind → Byte
  | .release => 0xD0#8
  | .commit => 0xD1#8
  | .channel => 0xD2#8
  | .timing => 0xD3#8

/-- The KIND of a response (R204). -/
def Kind.response : Byte := 0xC0#8

/-! ### Response bodies (R190) -/

/-- A node entry with its derived fields, as READ_NODES returns it (R204). -/
def nodeBytes (n : Node) : List Byte :=
  leSigned n.u ++ leSigned n.v ++ leBytes 2 n.baseWeight ++ leBytes 2 (if n.isVoid then 1 else 0) ++
    leBytes 2 n.weight ++ leBytes 2 n.lift ++ leOption 1 (n.seamRef.map SeamRef.seam) ++
    leOption 1 (n.seamRef.map SeamRef.point)

/-- A seam record as READ_SEAM returns it (R35). -/
def seamBytes (id : SeamId) (s : Seam) : List Byte :=
  leBytes 1 id.val ++ leBytes 1 s.members.length ++ s.members.flatMap (fun c => leBytes 1 c.val) ++
    leBytes 1 s.points.length ++
    s.points.flatMap fun p => p.flatMap fun e => leBytes 2 e.node ++ leBytes 2 e.coverage

/-- The fade fields (R173, R212). -/
def fadeBytes (f : Fade) : List Byte := leBytes 2 f.level ++ leBytes 2 f.target ++ leBytes 2 f.remaining

/-- The commit fields of the global status record (R211). -/
def lastResultBytes (r : LastResult) : List Byte :=
  leBytes 1 r.outcome.result.code ++ leBytes 1 r.outcome.error.code ++ itemBytes r.outcome.item ++
    leOption 1 (r.outcome.link.map Fin.val) ++ leBytes 2 r.outcome.count ++
    leOption 4 (r.outcome.swapFrame.map BitVec.toNat) ++
    leBytes 2 r.floor.phi ++ flagByte r.floor.floorClamped ++ leBytes 2 r.floor.shortfall

/-- The global status record, 67 bytes (R210 to R212). -/
def globalBytes (g : GlobalStatus) : List Byte :=
  leBytes 1 g.mode.code ++ leBytes 1 g.source.code ++ leBytes 1 g.timingState.code ++ leBytes 1 g.rate ++
    leBytes 4 g.period ++ leBytes 2 g.width ++ leBytes 2 g.height ++
    leBytes 1 g.floorMode.code ++ leBytes 2 g.phiSet ++ leBytes 1 g.tau ++ leBytes 2 g.phi ++
    leBytes 1 g.commitState.code ++ lastResultBytes g.last ++
    leBytes 2 g.occupancy ++ leBytes 2 g.recordCount ++ leOption 2 (g.mark.map Mark.count) ++
    leOption 2 (g.mark.map Mark.units) ++
    leBytes 4 g.skyFrame.toNat ++ leBytes 2 g.enrolled.toNat ++ leBytes 2 g.stalled.toNat ++ leBytes 2 g.dark.toNat ++
    leBytes 1 g.reload ++ leBytes 1 g.cadence ++ leBytes 1 g.timeout ++ leBytes 1 g.stallLimit ++ leBytes 1 g.lossLimit ++
    leBytes 2 g.waitCount ++ fadeBytes g.fade

/-- The status record of one channel, 37 bytes (R213). -/
def channelBytes (c : ChannelStatus) : List Byte :=
  leBytes 1 c.channel.val ++ leBytes 1 c.receiver.code ++ leBytes 1 c.lossCount ++
    c.banks.flatMap (fun b => leBytes 1 b.1.code ++ leBytes 4 b.2.toNat) ++
    leOption 1 (c.malformed.map fun f => if f then 1 else 0) ++ leBytes 1 c.output.code ++
    flagByte c.barrier.enrolled ++ flagByte c.barrier.stalled ++ flagByte c.barrier.dark ++
    leBytes 1 c.barrier.lateCount ++ leBytes 1 c.barrier.policy.code ++
    leBytes 2 c.record.width ++ leBytes 2 c.record.height ++ leBytes 2 c.record.beta ++
    leBytes 2 c.record.gainR ++ leBytes 2 c.record.gainG ++ leBytes 2 c.record.gainB

/-- The bytes of a response body: each field by its range (R190; DEDUCED, unsafe: notes/assumptions/24.md). -/
def Body.bytes : Body → List Byte
  | .empty => []
  | .staged units occupancy => leBytes 2 units ++ leBytes 2 occupancy
  | .removed count => leBytes 2 count
  | .marked count units => leBytes 2 count ++ leBytes 2 units
  | .engineBusy state link => leBytes 1 state.code ++ leOption 1 (link.map Fin.val)
  | .abortedIn state => leBytes 1 state.code
  | .enrollment set => leBytes 2 set.toNat
  | .barrier timeout stallLimit lossLimit => leBytes 1 timeout ++ leBytes 1 stallLimit ++ leBytes 1 lossLimit
  | .cadence reload counter => leBytes 1 reload ++ leBytes 1 counter
  | .fade f => fadeBytes f
  | .outputs states => states.flatMap fun o => leBytes 1 o.code
  | .timing source state period => leBytes 1 source.code ++ leBytes 1 state.code ++ leBytes 4 period
  | .raster width height => leBytes 2 width ++ leBytes 2 height
  | .mode m => leBytes 1 m.code
  | .notices m => leBytes 1 m.code
  | .nodes ns => ns.flatMap nodeBytes
  | .seam occupancy count id s => leBytes 2 occupancy ++ leBytes 1 count ++ seamBytes id s
  | .pool occupancy count => leBytes 2 occupancy ++ leBytes 1 count
  | .globalStatus g => globalBytes g
  | .channelStatus c => channelBytes c
  | .counters first values => leBytes 2 first ++ leBytes 1 values.length ++ values.flatMap fun v => leBytes 4 v.toNat

/-- The payload of a response: header and body (R190, R204). -/
def Response.payload (r : Response) : List Byte :=
  [r.kind] ++ leBytes 1 r.code.code ++
    leBytes 1 ((if r.clamped then 1 else 0) + (if r.isPartial then 2 else 0)) ++ r.body.bytes

/-! ### Notices (R200) -/

/-- A tag that may be absent, preceded by its presence byte. -/
def presentTag (t : Option Word32) : List Byte :=
  leBytes 1 (if t.isSome then 1 else 0) ++ leOption 4 (t.map BitVec.toNat)

/-- The outcome field of a tile RELEASE notice; only SWAPPED carries tag bytes (R150, R200; DEDUCED, unsafe:
notes/assumptions/13.md). -/
def releaseOutcomeBytes : ReleaseOutcome → List Byte
  | .swapped tag => leBytes 1 0 ++ presentTag tag
  | .heldLate => leBytes 1 1
  | .heldStalled => leBytes 1 2

/-- The floor fields of a COMMIT notice. -/
def floorPartBytes (f : FloorPart) : List Byte := leBytes 2 f.phi ++ flagByte f.floorClamped ++ leBytes 2 f.shortfall

/-- The cause of an abort and the link that sent it. -/
def abortCauseBytes : AbortCause → List Byte
  | .abortCommit l => leBytes 1 0 ++ leBytes 1 l.val
  | .restart => leBytes 1 1 ++ leOption 1 none

/-- The fields of a notice after its header (R200). A CHANNEL notice repeats its channel (DEDUCED, unsafe:
notes/assumptions/12.md). -/
def NoticeBody.bytes : NoticeBody → List Byte
  | .release frame forced outcome => leBytes 4 frame.toNat ++ flagByte forced ++ releaseOutcomeBytes outcome
  | .summary frame forced turned late taken =>
    leBytes 4 frame.toNat ++ flagByte forced ++ leBytes 2 turned.toNat ++ leBytes 2 late.toNat ++ flagByte taken
  | .armed link count floor => leBytes 1 0 ++ leBytes 1 link.val ++ leBytes 2 count ++ floorPartBytes floor
  | .failed link count error item =>
    leBytes 1 1 ++ leBytes 1 link.val ++ leBytes 2 count ++ leBytes 1 error.code ++ itemBytes item
  | .aborted link count state cause =>
    leBytes 1 2 ++ leBytes 1 link.val ++ leBytes 2 count ++ leBytes 1 state.code ++ abortCauseBytes cause
  | .swapped link count frame floor =>
    leBytes 1 3 ++ leBytes 1 link.val ++ leBytes 2 count ++ leBytes 4 frame.toNat ++ floorPartBytes floor
  | .inputLost c tag ready => leBytes 1 0 ++ leBytes 1 c.val ++ presentTag tag ++ flagByte ready
  | .inputRestored c tag => leBytes 1 1 ++ leBytes 1 c.val ++ leBytes 4 tag.toNat
  | .stalled c frame policy => leBytes 1 2 ++ leBytes 1 c.val ++ leBytes 4 frame.toNat ++ leBytes 1 policy.code
  | .rejoined c tag => leBytes 1 3 ++ leBytes 1 c.val ++ leBytes 4 tag.toNat
  | .skew c tag reference referenceTag frame =>
    leBytes 1 4 ++ leBytes 1 c.val ++ leBytes 4 tag.toNat ++ leBytes 1 reference.val ++ leBytes 4 referenceTag.toNat ++
      leBytes 4 frame.toNat
  | .timing state previous source period =>
    leBytes 1 state.code ++ leBytes 1 previous.code ++ leBytes 1 source.code ++ leBytes 4 period

/-- The payload of a notice: flags, merged count, channel and fields. -/
def Notice.payload (n : Notice) : List Byte :=
  flagByte n.lost ++ leBytes 2 n.merged ++ leOption 1 (n.channel.map Fin.val) ++ n.body.bytes

/-- A message of an outbound queue as it stands on the line (R196). -/
def OutMessage.bytes : OutMessage → List Byte
  | .response r => messageBytes Kind.response r.payload
  | .notice n => messageBytes n.body.kind.code n.payload

end Sys2Proof.Machine
end

