-- ==== Sys2Proof/Machine/Staging.lean ====
section
/-! DEFINITION. The Staging Queue and the Staging Arbiter: the six staging requests, the arbiter's turn, and DISCARD
(chapter 5, with the request checks of chapters 1, 2 and 10). -/

namespace Sys2Proof.Machine

/-! ### The checks of the staging requests, each in its order (R193) -/

/-- The checks of STAGE_NODES (R8, R193). -/
def checkStageNodes (l : Link) (s : State) (p : List Byte) : Except ResultCode (Edit × Bool) :=
  if p.length ≠ stageNodesLength p then .error .malformed
  else match chan? (u8 p 0) with
    | none => .error .badField
    | some c =>
      if u8 p 3 = 0 ∨ 64 < u8 p 3 ∨ (nodeMaskOf p).selects = false then .error .badField
      else if Config.nodesPerGrid < u16 p 1 + u8 p 3 then .error .badIndex
      else if foreignTile l c then .error .notPermitted
      else if heldTile l s then .error .held
      else .ok (.nodes c (u16 p 1) (nodeMaskOf p) (nodeEntriesOf p), nodesClamped p)

/-- The checks of STAGE_SEAM (R21). -/
def checkStageSeam (l : Link) (s : State) (p : List Byte) : Except ResultCode (Edit × Bool) :=
  if p.length ≠ stageSeamLength p then .error .malformed
  else match seam? (u8 p 0) with
    | none => .error .badField
    | some id =>
      if u8 p 1 < 2 ∨ 4 < u8 p 1 then .error .badField
      else match membersOf? (seamMembersOf p) with
        | none => .error .badField
        | some ms =>
          if u8 p 2 < 1 ∨ 96 < u8 p 2 then .error .badField
          else if (seamPointsOf p).any (fun q => q.any fun e => decide (Config.nodesPerGrid ≤ e.node)) then .error .badIndex
          else if ms.all (foreignTile l) then .error .notPermitted
          else if heldTile l s then .error .held
          else .ok (.seam id { members := ms, points := seamPointsOf p }, false)

/-- The checks of DROP_SEAM, the membership judged against ACTIVE (R22). -/
def checkDropSeam (l : Link) (s : State) (p : List Byte) : Except ResultCode (Edit × Bool) :=
  if p.length ≠ 1 then .error .malformed
  else match seam? (u8 p 0) with
    | none => .error .badField
    | some id =>
      match tileOf l with
      | none => .ok (.seamDrop id, false)
      | some k => match s.tables.active.seams[id] with
        | none => .error .notFound
        | some r =>
          if ¬ k ∈ r.members then .error .notPermitted
          else if heldTile l s then .error .held
          else .ok (.seamDrop id, false)

/-- The checks of STAGE_CHANNEL (R9, R193). -/
def checkStageChannel (l : Link) (s : State) (p : List Byte) : Except ResultCode (Edit × Bool) :=
  if p.length ≠ 14 then .error .malformed
  else match chan? (u8 p 0) with
    | none => .error .badField
    | some c =>
      let m := channelMaskOf p
      let v := channelValuesOf p
      if m.selects = false ∨ (m.raster = true ∧ inputRasterOk v.width v.height = false) then .error .badField
      else if foreignTile l c then .error .notPermitted
      else if heldTile l s then .error .held
      else .ok (.channel c m v, channelClamped p)

/-- The checks of STAGE_FLOOR (R14, R193). -/
def checkStageFloor (l : Link) (p : List Byte) : Except ResultCode (Edit × Bool) :=
  if p.length ≠ 5 then .error .malformed
  else if l ≠ SL then .error .notPermitted
  else if (floorMaskOf p).selects = false then .error .badField
  else match floorEditOf? p with
    | none => .error .badField
    | some e => .ok (e, floorClampedOf p)

/-- A tile link that may not write the target (R13). -/
def LutTarget.forbids (t : LutTarget) (l : Link) : Bool := match t with
  | .input => decide (l ≠ SL)
  | .output c _ => foreignTile l c

/-- The checks of STAGE_LUT (R13, R193). -/
def checkStageLut (l : Link) (s : State) (p : List Byte) : Except ResultCode (Edit × Bool) :=
  if p.length ≠ stageLutLength p then .error .malformed
  else match lutTarget? (u8 p 0) with
    | none => .error .badField
    | some t =>
      if u16 p 3 = 0 ∨ 256 < u16 p 3 then .error .badField
      else if t.size < u16 p 1 + u16 p 3 then .error .badIndex
      else if t.forbids l then .error .notPermitted
      else if heldTile l s then .error .held
      else .ok (.lut t (u16 p 1) (lutValuesOf t p), lutClamped t p)

/-- A checked staging request is refused, or presents its record and waits for a turn (R76). -/
def stageRequest (l : Link) (kind : Byte) (checked : Except ResultCode (Edit × Bool)) (s : State) : State :=
  match checked with
  | .error code => refuse l kind code s
  | .ok e => present l kind e.1 e.2 s

/-- STAGE_NODES (R8). -/
def execStageNodes (l : Link) (s : State) : Out :=
  takeRequest l (· == Kind.stageNodes) (fun m s => stageRequest l Kind.stageNodes (checkStageNodes l s m.payload) s) s

/-- STAGE_SEAM (R21). -/
def execStageSeam (l : Link) (s : State) : Out :=
  takeRequest l (· == Kind.stageSeam) (fun m s => stageRequest l Kind.stageSeam (checkStageSeam l s m.payload) s) s

/-- DROP_SEAM (R22). -/
def execDropSeam (l : Link) (s : State) : Out :=
  takeRequest l (· == Kind.dropSeam) (fun m s => stageRequest l Kind.dropSeam (checkDropSeam l s m.payload) s) s

/-- STAGE_CHANNEL (R9). -/
def execStageChannel (l : Link) (s : State) : Out :=
  takeRequest l (· == Kind.stageChannel) (fun m s => stageRequest l Kind.stageChannel (checkStageChannel l s m.payload) s) s

/-- STAGE_FLOOR (R14). -/
def execStageFloor (l : Link) (s : State) : Out :=
  takeRequest l (· == Kind.stageFloor) (fun m s => stageRequest l Kind.stageFloor (checkStageFloor l m.payload) s) s

/-- STAGE_LUT (R13). -/
def execStageLut (l : Link) (s : State) : Out :=
  takeRequest l (· == Kind.stageLut) (fun m s => stageRequest l Kind.stageLut (checkStageLut l s m.payload) s) s

/-! ### The queue -/

/-- The units of a run of records (R73). -/
def unitsOf (rs : List EditRecord) : Nat := (rs.map fun r => r.edit.units).sum

/-- The occupancy of the queue, marked and unmarked records together (R73). -/
def Staging.occupancy (q : Staging) : Nat := unitsOf q.records

/-- The number of marked records; 0 while the mark is absent. -/
def Staging.markedCount (q : Staging) : Nat := match q.mark with
  | none => 0
  | some m => m.count

/-- The marked records: the first of the queue (R80). -/
def Staging.marked (q : Staging) : List EditRecord := q.records.take q.markedCount

/-- The unmarked records, behind the mark (R80). -/
def Staging.unmarked (q : Staging) : List EditRecord := q.records.drop q.markedCount

/-! ### The Staging Arbiter (R77, R78) -/

/-- The link `i` places after `l` in rotation order: TL0, …, TL11, SL, and TL0 again. -/
def rotate (l : Link) (i : Nat) : Link := ⟨(l.val + i) % 13, Nat.mod_lt _ (by decide)⟩

/-- The presenting link that comes first in rotation order from the pointer (R77). -/
def nextTurn (s : State) : Option Link :=
  ((List.range 13).map (rotate s.staging.pointer)).find? fun l => s.ports[l].inProcess.isSome

/-- The turn of a presented record: the pointer moves on, the request ends, and the record is admitted at the tail or
refused STAGE_FULL (R77, R78). -/
def takeTurn (l : Link) (p : Presented) (s : State) : State :=
  let units := p.record.edit.units
  let occupancy := s.staging.occupancy
  let s' := { s with
    staging := { s.staging with pointer := rotate l 1 }
    ports := upd s.ports l fun q => { q with inProcess := none } }
  if occupancy + units ≤ Config.queueUnits then
    acceptClamped l p.kind p.clamped (.staged units (occupancy + units))
      { s' with staging := { s'.staging with records := s.staging.records ++ [p.record] } }
  else
    respond l { kind := p.kind, code := .stageFull, clamped := false, isPartial := false, body := .staged units occupancy }
      (bump Counter.stagingRefusals s')

/-- The arbiter gives one turn if a record is presented (R77). -/
def stagingTurnStep (s : State) : State :=
  match nextTurn s with
  | none => s
  | some l => match s.ports[l].inProcess with
    | none => s
    | some p => takeTurn l p s

/-- STAGING_TURN (R78). -/
def execStagingTurn (s : State) : Out := takeEvent s stagingTurnStep

/-! ### DISCARD (R83 to R85) -/

/-- The records a DISCARD selects: those of one originating link, or all. -/
inductive DiscardSelector where
  | all
  | one (l : Link)
deriving DecidableEq, Repr

/-- The selector matches a record's originating link. -/
def DiscardSelector.hits (d : DiscardSelector) (r : EditRecord) : Bool := match d with
  | .all => true
  | .one l => decide (r.origin = l)

/-- The checks of DISCARD: a tile link sends no selector; SL sends FFh for ALL or a link number (R83, R84, R193). -/
def checkDiscard (l : Link) (s : State) (p : List Byte) : Except ResultCode DiscardSelector :=
  if l ≠ SL then
    if p.length ≠ 0 then .error .malformed
    else if heldTile l s then .error .held
    else .ok (.one l)
  else if p.length ≠ 1 then .error .malformed
  else if u8 p 0 = 255 then .ok .all
  else match link? (u8 p 0) with
    | none => .error .badField
    | some k => .ok (.one k)

/-- The matching unmarked records leave the queue; the others close up in their order (R83, R84). -/
def Staging.discard (q : Staging) (d : DiscardSelector) : Staging :=
  { q with records := q.marked ++ q.unmarked.filter fun r => !d.hits r }

/-- A checked DISCARD, answered with the number of records removed and PARTIAL (R85). -/
def discardRequest (l : Link) (p : List Byte) (s : State) : State :=
  match checkDiscard l s p with
  | .error code => refuse l Kind.discard code s
  | .ok d =>
    respond l { kind := Kind.discard, code := .accepted, clamped := false
                isPartial := s.staging.marked.any d.hits
                body := .removed (s.staging.unmarked.filter d.hits).length }
      { s with staging := s.staging.discard d }

/-- DISCARD (R83, R84). -/
def execDiscard (l : Link) (s : State) : Out :=
  takeRequest l (· == Kind.discard) (fun m s => discardRequest l m.payload s) s

end Sys2Proof.Machine
end

