-- ==== Sys2Proof/Machine/Derive.lean ====
section
/-! DEFINITION. What a commit derives: applying the marked records (R94), the pool test and the seam walk (R25, R26), the
normalization of weights (R30 to R34), and the black floor (R38 to R49). -/

namespace Sys2Proof.Machine

/-! ### APPLYING (R8, R9, R13, R14, R23, R24) -/

/-- A node with the selected fields of an entry written (R8). -/
def NodeEntry.apply (e : NodeEntry) (m : NodeMask) (n : Node) : Node :=
  { n with
    u := if m.position then e.u else n.u
    v := if m.position then e.v else n.v
    isVoid := if m.isVoid then e.isVoid else n.isVoid
    baseWeight := if m.baseWeight then e.baseWeight else n.baseWeight }

/-- The nodes from `start` on take the selected fields of the entries, in index order (R8). -/
def applyNodes (c : Channel) (m : NodeMask) : Nat → List NodeEntry → Bank → Bank
  | _, [], b => b
  | i, e :: es, b => applyNodes c m (i + 1) es (b.setNode c i (e.apply m (b.node c i)))

/-- A channel record with the selected fields written (R9). -/
def ChannelRecord.select (r : ChannelRecord) (m : ChannelMask) (v : ChannelRecord) : ChannelRecord :=
  { width := if m.raster then v.width else r.width
    height := if m.raster then v.height else r.height
    beta := if m.beta then v.beta else r.beta
    gainR := if m.gains then v.gainR else r.gainR
    gainG := if m.gains then v.gainG else r.gainG
    gainB := if m.gains then v.gainB else r.gainB }

/-- A sky record with the selected fields written (R14). -/
def SkyRecord.select (r : SkyRecord) (m : FloorMask) (mode : FloorMode) (phiSet tau : Nat) : SkyRecord :=
  { r with
    floorMode := if m.mode then mode else r.floorMode
    phiSet := if m.phiSet then phiSet else r.phiSet
    tau := if m.tau then tau else r.tau }

/-- One edit applied to a bank (R94). -/
def Edit.apply : Edit → Bank → Bank
  | .nodes c start m es, b => applyNodes c m start es b
  | .seam id r, b => { b with seams := put b.seams id (some r) }
  | .seamDrop id, b => { b with seams := put b.seams id none }
  | .channel c m v, b => { b with records := upd b.records c fun r => r.select m v }
  | .floor m f phi tau, b => { b with sky := b.sky.select m f phi tau }
  | .lut .input start vs, b => { b with inputLut := b.inputLut.setRun inputDefault start vs }
  | .lut (.output c k) start vs, b =>
    { b with outputLuts := upd b.outputLuts (lutPlace c k) fun t => t.setRun outputDefault start vs }

/-- Records applied one after another, in queue order (R75, R94). -/
def applyRecords (rs : List EditRecord) (b : Bank) : Bank := rs.foldl (fun b r => r.edit.apply b) b

/-! ### CHECKING (R25 to R28) -/

/-- One member entry of the walk: the point it belongs to and the node it claims. -/
structure Claim where
  ref : SeamRef
  channel : Channel
  node : Nat
deriving DecidableEq, Repr

/-- The member entries of every present seam in walk order (R26). -/
def Bank.claims (b : Bank) : List Claim :=
  b.points.flatMap fun p => p.members.map fun m =>
    { ref := { seam := p.seam, point := p.point }, channel := m.1, node := m.2.node }

/-- A failure of a commit phase: its error code and the item it names (R98). -/
structure Failure where
  error : CommitError
  item : Item
deriving DecidableEq, Repr

/-- The walk: each claimed node must be non-VOID and unclaimed, and takes the reference; the first failure ends it
(R26 to R28). -/
def walkClaims : List Claim → Bank → Bank × Option Failure
  | [], b => (b, none)
  | q :: qs, b =>
    let n := b.node q.channel q.node
    if n.isVoid then (b, some { error := .seamVoidNode, item := .node q.channel q.node })
    else if n.seamRef.isSome then (b, some { error := .nodeConflict, item := .node q.channel q.node })
    else walkClaims qs (b.setNode q.channel q.node { n with seamRef := some q.ref })

/-- Every seam reference cleared (R26). -/
def Bank.clearRefs (b : Bank) : Bank := b.mapNodes fun _ n => { n with seamRef := none }

/-- CHECKING: the pool test, then the walk (R25, R26). -/
def checkBank (b : Bank) : Bank × Option Failure :=
  if Config.poolSize < b.poolOccupancy then
    (b, (b.points[Config.poolSize]?).map fun p => { error := .pointPoolFull, item := .point p.seam p.point })
  else walkClaims b.claims b.clearRefs

/-! ### NORMALIZING (R30 to R34) -/

/-- The position of the first largest value (R33). -/
def leadIndex (rs : List Nat) : Nat := rs.idxOf (rs.foldl max 0)

/-- The shares rounded down, those below the flush threshold set to 0 (R31, R32). -/
def flushedShares (tau : Nat) (rs : List Nat) : List Nat :=
  rs.map fun r => if r * 4096 / rs.sum < tau then 0 else r * 4096 / rs.sum

/-- The final shares: the lead member takes what the others leave of 4096 (R33). -/
def finalShares (tau : Nat) (rs : List Nat) : List Nat :=
  let q := flushedShares tau rs
  q.set (leadIndex rs) (4096 - (q.eraseIdx (leadIndex rs)).sum)

/-- The raw coverages of a point, in member-list order. -/
def PointAt.coverages (p : PointAt) : List Nat := p.members.map fun m => m.2.coverage

/-- The first point whose coverages are all 0 (R30). -/
def Bank.zeroPoint (b : Bank) : Option PointAt := b.points.find? fun p => decide (p.coverages.sum = 0)

/-- The lead member of every point (R33, R34). -/
def Bank.leads (b : Bank) : List Lead :=
  b.points.map fun p => { seam := p.seam, point := p.point, position := leadIndex p.coverages }

/-- The derived weights of nodes in no seam: the base weight, or 0 for a VOID node (R34). -/
def Node.withBaseWeight (n : Node) : Node := { n with weight := if n.isVoid then 0 else n.baseWeight }

/-- Weights written to the member nodes of one point, in member-list order (R34). -/
def writeWeights : List ((Channel × MemberEntry) × Nat) → Bank → Bank
  | [], b => b
  | (m, w) :: ms, b => writeWeights ms (b.setNode m.1 m.2.node { b.node m.1 m.2.node with weight := w })

/-- Every derived weight of the bank (R34). -/
def Bank.normalized (b : Bank) : Bank :=
  b.points.foldl (fun b' p => writeWeights (p.members.zip (finalShares b.sky.tau p.coverages)) b')
    (b.mapNodes fun _ n => n.withBaseWeight)

/-! ### FLOORING (R38 to R43) -/

/-- The black of a seam: the sum of β over its members (R38). -/
def Bank.seamBlack (b : Bank) (s : Seam) : Nat := (s.members.map fun c => (b.records[c]).beta).sum

/-- The black of the points of the seam with this id (R38). -/
def Bank.seamBlackAt (b : Bank) (id : Nat) : Nat :=
  if h : id < 48 then
    match b.seams[id] with
    | none => 0
    | some s => b.seamBlack s
  else 0

/-- The node black of a non-VOID node (R38). -/
def Bank.nodeBlack (b : Bank) (c : Channel) (n : Node) : Nat := match n.seamRef with
  | none => (b.records[c]).beta
  | some r => b.seamBlackAt r.seam

/-- The floor value found (R39, R40). -/
def Bank.floorValue (b : Bank) : Nat := match b.sky.floorMode with
  | .fixed => b.sky.phiSet
  | .auto => (b.liveNodes.map fun p => b.nodeBlack p.1 p.2).foldl max 0

/-- Φ and H written to the sky record (R41, R42). -/
def Bank.floored (b : Bank) : Bank :=
  { b with sky := { b.sky with phi := b.floorValue, headroom := 65535 - b.floorValue } }

/-! ### LIFTING (R44 to R49) -/

/-- The lifts of a point with shortfall `d` and `n` members: equal shares rounded down, the remainder to the lead (R47). -/
def liftShares (d n lead : Nat) : List Nat :=
  (List.replicate n (d / n)).set lead (d - (n - 1) * (d / n))

/-- The lift of a node in no seam, or VOID (R45). -/
def Bank.interiorLift (b : Bank) (c : Channel) (n : Node) : Node :=
  { n with lift := if n.isVoid then 0 else b.sky.phi - b.nodeBlack c n }

/-- Lifts written to the member nodes of one point, in member-list order (R47). -/
def writeLifts : List ((Channel × MemberEntry) × Nat) → Bank → Bank
  | [], b => b
  | (m, v) :: ms, b => writeLifts ms (b.setNode m.1 m.2.node { b.node m.1 m.2.node with lift := v })

/-- The lead position recorded for a point (R34). -/
def leadOf (leads : List Lead) (p : PointAt) : Nat :=
  match leads.find? fun l => decide (l.seam = p.seam ∧ l.point = p.point) with
  | none => 0
  | some l => l.position

/-- Every derived lift of the bank (R45, R47). -/
def Bank.lifted (b : Bank) (leads : List Lead) : Bank :=
  b.points.foldl
    (fun b' p => writeLifts
      (p.members.zip (liftShares (b.sky.phi - b.seamBlackAt p.seam) p.members.length (leadOf leads p))) b')
    (b.mapNodes b.interiorLift)

/-- The shortfall count: interior nodes and seam points whose black lies above the floor (R46). -/
def Bank.shortfallCount (b : Bank) : Nat :=
  (b.liveNodes.filter fun p => p.2.seamRef.isNone && decide (b.sky.phi < b.nodeBlack p.1 p.2)).length +
    (b.points.filter fun p => decide (b.sky.phi < b.seamBlackAt p.seam)).length

end Sys2Proof.Machine
end

