-- ==== Sys2Proof/Machine/Commit.lean ====
section
/-! DEFINITION. The Commit Engine: COMMIT, ABORT_COMMIT, the completions of the five phases, failure, and the swap
(chapter 6). -/

namespace Sys2Proof.Machine

/-- The floor part of the last-result record that a current commit gives (R97). -/
def CurrentCommit.floorPart (c : CurrentCommit) : FloorPart :=
  { phi := c.phi, floorClamped := c.floorClamped, shortfall := c.shortfall }

/-- The commit ends: the engine returns to IDLE, the current-commit record goes and the outcome part is written
(R98, R100, R104). -/
def CommitEngine.finish (e : CommitEngine) (o : OutcomePart) : CommitEngine :=
  { state := .idle, current := none, last := { e.last with outcome := o } }

/-- The mark is cleared; the records stay and become unmarked (R81). -/
def Staging.clearMark (q : Staging) : Staging := { q with mark := none }

/-- The marked records leave at the swap and the mark becomes absent (R82). -/
def Staging.removeMarked (q : Staging) : Staging := { q with records := q.unmarked, mark := none }

/-! ### COMMIT (R91) -/

/-- COMMIT carried out: mark, copy of ACTIVE into SHADOW, current-commit record, APPLYING (R91). The record's derived
fields are empty until derived (DESIGN CHOICE, safe: notes/assumptions/21.md). -/
def startCommit (l : Link) (s : State) : State :=
  { s with
    staging := { s.staging with mark := some { count := s.staging.records.length, units := s.staging.occupancy } }
    tables := s.tables.setShadow s.tables.active
    engine := { s.engine with
      state := .applying
      current := some { link := l, count := s.staging.records.length, units := s.staging.occupancy, leads := []
                        phi := 0, floorClamped := false, shortfall := 0 } } }

/-- COMMIT checked and answered (R91, R188). -/
def commitRequest (l : Link) (p : List Byte) (s : State) : State :=
  if p.length ≠ 0 then refuse l Kind.commit .malformed s
  else if heldTile l s then refuse l Kind.commit .held s
  else if s.engine.state ≠ .idle then
    respond l { kind := Kind.commit, code := .busy, clamped := false, isPartial := false
                body := .engineBusy s.engine.state (s.engine.current.map CurrentCommit.link) } s
  else accept l Kind.commit (.marked s.staging.records.length s.staging.occupancy) (startCommit l s)

/-- COMMIT (R91). -/
def execCommit (l : Link) (s : State) : Out :=
  takeRequest l (· == Kind.commit) (fun m s => commitRequest l m.payload s) s

/-! ### ABORT_COMMIT (R99, R100) -/

/-- The outcome part of an aborted commit (R100, R108). -/
def abortedOutcome (c : CurrentCommit) : OutcomePart :=
  { result := .aborted, error := .none, item := none, link := some c.link, count := c.count, swapFrame := none }

/-- The commit is abandoned: IDLE, the mark cleared, the outcome written, the abort counted (R100). -/
def abandonCommit (c : CurrentCommit) (s : State) : State :=
  bump Counter.commitsAborted
    { s with engine := s.engine.finish (abortedOutcome c), staging := s.staging.clearMark }

/-- ABORT_COMMIT checked and answered; the ABORTED notice goes out before or after the response on a shared link
(R99, R100, R109). -/
def abortRequest (l : Link) (order : Handing) (p : List Byte) (s : State) : State :=
  if p.length ≠ 0 then refuse l Kind.abortCommit .malformed s
  else match s.engine.current with
    | none => refuse l Kind.abortCommit .nothingToAbort s
    | some c =>
      if s.engine.state = .idle then refuse l Kind.abortCommit .nothingToAbort s
      else if l ≠ SL ∧ c.link ≠ l then refuse l Kind.abortCommit .notPermitted s
      else
        let notices := commitHands c.link (.aborted c.link c.count s.engine.state (.abortCommit l))
        let answer := accept l Kind.abortCommit (.abortedIn s.engine.state)
        match order with
        | .responseFirst => handAll notices (answer (abandonCommit c s))
        | .noticeFirst => answer (handAll notices (abandonCommit c s))

/-- ABORT_COMMIT (R99). -/
def execAbortCommit (l : Link) (order : Handing) (s : State) : Out :=
  takeRequest l (· == Kind.abortCommit) (fun m s => abortRequest l order m.payload s) s

/-! ### The completions of the phases (R93 to R98) -/

/-- A commit fails: IDLE, the mark cleared, the outcome written, the failure counted and notified (R98, R109). -/
def failCommit (c : CurrentCommit) (f : Failure) (s : State) : State :=
  let outcome : OutcomePart :=
    { result := .failed, error := f.error, item := some f.item, link := some c.link, count := c.count, swapFrame := none }
  handAll (commitHands c.link (.failed c.link c.count f.error (some f.item)))
    (bump Counter.commitsFailed { s with engine := s.engine.finish outcome, staging := s.staging.clearMark })

/-- The SHADOW bank is written and the engine goes on to the next phase. -/
def nextPhase (b : Bank) (st : CommitState) (c : CurrentCommit) (s : State) : State :=
  { s with tables := s.tables.setShadow b, engine := { s.engine with state := st, current := some c } }

/-- The completion of a phase is an event of the engine in that phase alone, and the phase's whole work is done at it
(R93; DESIGN CHOICE, safe: notes/assumptions/9.md). -/
def completePhase (st : CommitState) (act : CurrentCommit → State → State) (s : State) : Out :=
  takeEvent s fun s => match s.engine.current with
    | none => s
    | some c => if s.engine.state = st then act c s else s

/-- All marked records have been applied to SHADOW; CHECKING begins (R94). -/
def finishApplying (c : CurrentCommit) (s : State) : State :=
  nextPhase (applyRecords s.staging.marked s.tables.shadow) .checking c s

/-- APPLYING_COMPLETES (R94). -/
def execApplyingCompletes (s : State) : Out := completePhase .applying finishApplying s

/-- The pool test and the walk end, in success or failure (R95). -/
def finishChecking (c : CurrentCommit) (s : State) : State :=
  let r := checkBank s.tables.shadow
  match r.2 with
  | none => nextPhase r.1 .normalizing c s
  | some f => failCommit c f { s with tables := s.tables.setShadow r.1 }

/-- CHECKING_COMPLETES (R95). -/
def execCheckingCompletes (s : State) : Out := completePhase .checking finishChecking s

/-- The weights and leads are written, or the commit fails with ZERO_COVERAGE (R30, R96). -/
def finishNormalizing (c : CurrentCommit) (s : State) : State :=
  match s.tables.shadow.zeroPoint with
  | some p => failCommit c { error := .zeroCoverage, item := .point p.seam p.point } s
  | none => nextPhase s.tables.shadow.normalized .flooring { c with leads := s.tables.shadow.leads } s

/-- NORMALIZING_COMPLETES (R96). -/
def execNormalizingCompletes (s : State) : Out := completePhase .normalizing finishNormalizing s

/-- Φ, FLOOR_CLAMPED, which is always clear, and H are derived; LIFTING begins (R41, R43). -/
def finishFlooring (c : CurrentCommit) (s : State) : State :=
  nextPhase s.tables.shadow.floored .lifting
    { c with phi := s.tables.shadow.floorValue, floorClamped := false } s

/-- FLOORING_COMPLETES (R43). -/
def execFlooringCompletes (s : State) : Out := completePhase .flooring finishFlooring s

/-- The lifts and the shortfall count are written; the commit is ARMED, writes the floor part and notifies
(R49, R97, R109). -/
def finishLifting (c : CurrentCommit) (s : State) : State :=
  let c' := { c with shortfall := s.tables.shadow.shortfallCount }
  let s' := nextPhase (s.tables.shadow.lifted c.leads) .armed c' s
  handAll (commitHands c.link (.armed c.link c.count c'.floorPart))
    { s' with engine := { s'.engine with last := { s'.engine.last with floor := c'.floorPart } } }

/-- LIFTING_COMPLETES (R49, R97). -/
def execLiftingCompletes (s : State) : Out := completePhase .lifting finishLifting s

/-! ### The swap (R103, R104) -/

/-- The commit a swap instruction would take: the one that is ARMED (R102). -/
def armedCommit (s : State) : Option CurrentCommit :=
  if s.engine.state = .armed then s.engine.current else none

/-- The outcome part of a swapped commit (R104). -/
def doneOutcome (c : CurrentCommit) (frame : Word32) : OutcomePart :=
  { result := .done, error := .none, item := none, link := some c.link, count := c.count, swapFrame := some frame }

/-- The swap: designations exchanged, marked records removed, IDLE, outcome DONE, counted (R103, R104). Its notice is
handed with those of the frame start. -/
def takeSwap (c : CurrentCommit) (frame : Word32) (s : State) : State :=
  bump Counter.commitsDone
    { s with
      tables := s.tables.swap
      staging := s.staging.removeMarked
      engine := s.engine.finish (doneOutcome c frame) }

/-- The channels whose input raster the swap changes (R105). -/
def rasterChanges (t : TableStore) (c : Channel) : Bool :=
  decide ((t.active.records[c]).width ≠ (t.shadow.records[c]).width ∨
    (t.active.records[c]).height ≠ (t.shadow.records[c]).height)

end Sys2Proof.Machine
end

