-- ==== Sys2Proof/Machine/Receivers.lean ====
section
/-! DEFINITION. The Input Receivers and the frame banks: the elements of the pixel input stream, and what a receiver does at
an output frame start (chapter 7), with the rejoin of a stalled channel (R146). -/

namespace Sys2Proof.Machine

/-! ### The three frame banks (R116, R117) -/

/-- The lowest-numbered bank in a state. -/
def Receiver.bankIn (r : Receiver) (st : BankState) : Option (Fin 3) :=
  [0, 1, 2].find? fun i => decide (r.banks[i].state = st)

/-- Change one bank. -/
def Receiver.updBank (r : Receiver) (i : Fin 3) (f : FrameBank → FrameBank) : Receiver :=
  { r with banks := upd r.banks i f }

/-- A bank goes to another state, keeping its tag, flag and codes. -/
def FrameBank.become (st : BankState) (b : FrameBank) : FrameBank := { b with state := st }

/-- The bank in a state, if there is one, goes FREE. -/
def Receiver.freeBankIn (r : Receiver) (st : BankState) : Receiver := match r.bankIn st with
  | none => r
  | some i => r.updBank i (FrameBank.become .free)

/-- A bank that starts filling under a header (R120). -/
def FrameBank.startFilling (tag : Word32) (b : FrameBank) : FrameBank :=
  { b with state := .filling, tag := tag, malformed := false }

/-! ### Frame headers (R120) -/

/-- A header: a frame in reception is freed, and the lowest-numbered FREE bank starts filling. -/
def Receiver.header (r : Receiver) (tag : Word32) : Receiver :=
  let r' := if r.state = .receiving then r.freeBankIn .filling else r
  match r'.bankIn .free with
  | none => r'
  | some i => { r'.updBank i (FrameBank.startFilling tag) with lineCount := 0, lossCount := 0, state := .receiving }

/-- A header taken: a truncation is counted, or INPUT_RESTORED is emitted (R120, R130). -/
def takeHeader (c : Channel) (tag : Word32) (s : State) : State :=
  let s' := { s with receivers := upd s.receivers c fun r => r.header tag }
  match s.receivers[c].state with
  | .receiving => bump (Counter.ofChannel c 1) s'
  | .idle => s'
  | .lost => handAll (channelHands c (.inputRestored c tag)) s'

/-- FRAME_HEADER (R120). -/
def execFrameHeader (c : Channel) (tag : Word32) (s : State) : Out := takeEvent s (takeHeader c tag)

/-! ### Lines (R121) -/

/-- A line written into the FILLING bank, or only counted when the raster is full; its length sets the malformed flag. -/
def Receiver.line (r : Receiver) (width height : Nat) (ps : List Pixel) : Receiver :=
  if r.state = .receiving then
    let n := min 65535 (r.lineCount + 1)
    match r.bankIn .filling with
    | none => { r with lineCount := n }
    | some i =>
      { r.updBank i fun b =>
          let b' := if n ≤ height then b.writeRow (n - 1) (ps.take width) else b
          { b' with malformed := b.malformed || decide (ps.length ≠ width) }
        with lineCount := n }
  else r

/-- A line checked against the input raster of ACTIVE (R115, R121). -/
def takeLine (c : Channel) (ps : List Pixel) (s : State) : State :=
  let rec_ := s.tables.active.records[c]
  { s with receivers := upd s.receivers c fun r => r.line rec_.width rec_.height ps }

/-- LINE (R121). -/
def execLine (c : Channel) (ps : List Pixel) (s : State) : Out := takeEvent s (takeLine c ps)

/-! ### Frame ends (R122, R123, R146) -/

/-- The frame in bank `i` is malformed or of the wrong height (R122). -/
def Receiver.badFrame (r : Receiver) (i : Fin 3) (height : Nat) : Bool :=
  r.banks[i].malformed || decide (r.lineCount ≠ height)

/-- A stalled channel rejoins on a frame completion (R146). -/
def rejoin (c : Channel) (tag : Word32) (s : State) : State :=
  if (s.barrier.channels[c]).stalled then
    handAll (channelHands c (.rejoined c tag))
      { s with barrier := { s.barrier with
          channels := upd s.barrier.channels c fun b => { b with stalled := false, lateCount := 0 } } }
  else s

/-- The frame in FILLING bank `i` is freed as malformed, or becomes READY in place of any older READY frame (R122). -/
def judgeFrame (c : Channel) (i : Fin 3) (s : State) : State :=
  let r := s.receivers[c]
  let height := (s.tables.active.records[c]).height
  if r.badFrame i height then
    bump (Counter.ofChannel c 2)
      { s with receivers := put s.receivers c { r.updBank i (FrameBank.become .free) with state := .idle } }
  else
    let replaced := (r.bankIn .ready).isSome
    let r' := { (r.freeBankIn .ready).updBank i (FrameBank.become .ready) with state := .idle }
    let s' := bumpAll (Counter.ofChannel c 0 :: if replaced then [Counter.ofChannel c 3] else [])
      { s with receivers := put s.receivers c r' }
    rejoin c r.banks[i].tag s'

/-- A frame end taken in RECEIVING ends the frame; elsewhere it is ignored (R122). -/
def takeFrameEnd (c : Channel) (s : State) : State :=
  if s.receivers[c].state = .receiving then
    match s.receivers[c].bankIn .filling with
    | none => { s with receivers := upd s.receivers c fun r => { r with state := .idle } }
    | some i => judgeFrame c i s
  else s

/-- FRAME_END (R122). -/
def execFrameEnd (c : Channel) (s : State) : Out := takeEvent s (takeFrameEnd c)

/-! ### At an output frame start (R124, R126, R128) -/

/-- What a receiver is told at an output frame start: the loss limit, whether its header fell together with the frame start
and was taken first (R125), whether it is asked to promote, and whether its raster changes. -/
structure Told where
  lossLimit : Nat
  header : Bool
  promote : Bool
  raster : Bool
deriving DecidableEq, Repr

/-- A receiver in the course of an output frame start: the tag it has handed back, the tag and READY-held flag of an
INPUT_LOST it has emitted, and what it has counted. -/
structure Turning where
  receiver : Receiver
  tag : Option Word32
  lost : Option (Option Word32 × Bool)
  truncated : Bool
  replaced : Bool
deriving DecidableEq, Repr

/-- A receiver at the beginning of an output frame start. -/
def Turning.start (r : Receiver) : Turning :=
  { receiver := r, tag := none, lost := none, truncated := false, replaced := false }

/-- No frame start and no line has come since the header of the frame in reception (R120, R121, R124). -/
def Receiver.headerFresh (r : Receiver) : Bool :=
  decide (r.state = .receiving ∧ r.lossCount = 0 ∧ r.lineCount = 0)

/-- The loss count step: in IDLE or RECEIVING the count rises, and at λ the input is declared lost (R124, R130). Where a header
fell together with the frame start and was taken first the count becomes 1 and no loss is declared, at λ = 1 too (R125; DEDUCED,
safe: notes/assumptions/28.md). A loss declared in IDLE is counted as one in RECEIVING is, though the closing sum of R131 has
no place for it (DESIGN CHOICE, unsafe: notes/assumptions/29.md). -/
def Turning.lossStep (t : Told) (g : Turning) : Turning :=
  let r := g.receiver
  if r.state = .lost then g
  else if t.header = true ∨ r.lossCount + 1 < t.lossLimit then { g with receiver := { r with lossCount := r.lossCount + 1 } }
  else
    { g with
      receiver := { r.freeBankIn .filling with state := .lost, lossCount := r.lossCount + 1 }
      lost := some ((r.bankIn .filling).map fun i => r.banks[i].tag, (r.bankIn .ready).isSome) }

/-- A promotion: a READY bank becomes SHOWN and its tag is handed back (R126). -/
def Turning.promoteStep (t : Told) (g : Turning) : Turning :=
  if t.promote then
    match g.receiver.bankIn .ready with
    | none => g
    | some i => { g with
        receiver := (g.receiver.freeBankIn .shown).updBank i (FrameBank.become .shown)
        tag := some g.receiver.banks[i].tag }
  else g

/-- A SHOWN bank cleared in place (R118). -/
def Receiver.clearShown (r : Receiver) : Receiver := match r.bankIn .shown with
  | none => r
  | some i => r.updBank i fun _ => FrameBank.cleared

/-- A raster change: FILLING and READY banks go FREE, the SHOWN bank is cleared (R128). -/
def Turning.rasterStep (t : Told) (g : Turning) : Turning :=
  if t.raster then
    let r := g.receiver
    { g with
      receiver := { ((r.freeBankIn .filling).freeBankIn .ready).clearShown with
        state := if r.state = .receiving then .idle else r.state }
      truncated := (r.bankIn .filling).isSome
      replaced := (r.bankIn .ready).isSome }
  else g

/-- One action of a receiver. -/
def Turning.act (t : Told) (g : Turning) : ReceiverAct → Turning
  | .loss => g.lossStep t
  | .promote => g.promoteStep t
  | .raster => g.rasterStep t

/-- The actions in their order. -/
def orderActs : ReceiverOrder → List ReceiverAct
  | .lossPromoteRaster => [.loss, .promote, .raster]
  | .lossRasterPromote => [.loss, .raster, .promote]
  | .promoteLossRaster => [.promote, .loss, .raster]
  | .promoteRasterLoss => [.promote, .raster, .loss]
  | .rasterLossPromote => [.raster, .loss, .promote]
  | .rasterPromoteLoss => [.raster, .promote, .loss]

/-- A receiver's whole part in an output frame start. -/
def Receiver.turn (r : Receiver) (o : ReceiverOrder) (t : Told) : Turning :=
  (orderActs o).foldl (Turning.act t) (Turning.start r)

/-- The counters of a receiver's part in a frame start (R131). -/
def Turning.counts (c : Channel) (g : Turning) : List CounterIx :=
  (if g.truncated then [Counter.ofChannel c 1] else []) ++ (if g.replaced then [Counter.ofChannel c 3] else []) ++
    (if g.lost.isSome then [Counter.ofChannel c 6] else [])

/-- An Input Receiver after RESTART or hard reset: LOST, counts 0, bank 0 SHOWN and cleared, banks 1 and 2 FREE with tag 0
and the flag clear (R133). -/
def Receiver.resetBanks (r : Receiver) : Receiver :=
  { state := .lost, lossCount := 0, lineCount := 0
    banks := updAll r.banks fun i b =>
      if i = 0 then FrameBank.cleared else { b with state := .free, tag := 0, malformed := false } }

end Sys2Proof.Machine
end

