-- ==== Sys2Proof/Machine/Barrier.lean ====
section
/-! DEFINITION. The Frame Barrier: the decision at an output frame start, what it does to each channel, tag skew, the
notices of a frame start, and the requests ENROLL, WITHDRAW, SET_BARRIER and SET_CADENCE (chapter 8). -/

namespace Sys2Proof.Machine

/-! ### The decision (R136, R138) -/

/-- What the barrier decides at an output frame start (R138). -/
inductive Decision where
  | notEligible
  | emptySet
  | normal
  | hold
  | forced
deriving DecidableEq, Repr

/-- A channel of the participating set: enrolled and not stalled (R135, R138). -/
def participates (s : State) (c : Channel) : Bool :=
  (s.barrier.channels[c]).enrolled && !(s.barrier.channels[c]).stalled

/-- A channel is ready when it has a READY frame bank (R135). -/
def isReady (s : State) (c : Channel) : Bool := (s.receivers[c].bankIn .ready).isSome

/-- The participating set P (R138). -/
def participants (s : State) : List Channel := channels.filter (participates s)

/-- ω once incremented; it stops at 65535 (R138). -/
def raisedWait (s : State) : Nat := min 65535 (s.barrier.waitCount + 1)

/-- The decision of an output frame start (R136, R138). -/
def decision (s : State) : Decision :=
  if s.barrier.cadence ≠ 0 then .notEligible
  else if participants s = [] then .emptySet
  else if (participants s).all (isReady s) then .normal
  else if s.barrier.timeout ≠ 0 ∧ s.barrier.timeout ≤ raisedWait s then .forced
  else .hold

/-- A release, normal or forced (R141). -/
def Decision.isRelease : Decision → Bool
  | .normal | .forced => true
  | .notEligible | .emptySet | .hold => false

/-- A swap instruction is handed to the Commit Engine (R140, R147). -/
def Decision.instructsSwap : Decision → Bool
  | .normal | .forced | .emptySet => true
  | .notEligible | .hold => false

/-- The sky frame number once the decision is counted in (R140, R141). -/
def turnNumber (d : Decision) (s : State) : Word32 :=
  if d.isRelease then s.barrier.skyFrame + 1 else s.barrier.skyFrame

/-- The commit swapped in at this frame start (R102). -/
def swapTaken (d : Decision) (s : State) : Option CurrentCommit :=
  if d.instructsSwap then armedCommit s else none

/-! ### Promotions asked (R126, R142, R148) -/

/-- The channel is asked to promote: a ready channel of P at a release, and every channel that is not enrolled. -/
def asksPromotion (d : Decision) (s : State) (c : Channel) : Bool :=
  if (s.barrier.channels[c]).enrolled then d.isRelease && participates s c && isReady s c else true

/-- The header of a channel fell together with this frame start and was taken first (R125; DEDUCED, safe:
notes/assumptions/28.md). -/
def headerTogether (race : FrameRace) (s : State) (c : Channel) : Bool :=
  race.together[c] && s.receivers[c].headerFresh

/-- What the receiver of a channel is told at this frame start. -/
def toldTo (race : FrameRace) (d : Decision) (s : State) (c : Channel) : Told :=
  { lossLimit := s.barrier.lossLimit
    header := headerTogether race s c
    promote := asksPromotion d s c
    raster := (swapTaken d s).isSome && rasterChanges s.tables c }

/-- Each receiver's part in this frame start. -/
def receiverTurns (race : FrameRace) (d : Decision) (s : State) : Vector Turning 12 :=
  Vector.ofFn fun c => s.receivers[c].turn race.receivers[c] (toldTo race d s c)

/-! ### Late and stalled channels (R142 to R145, R148) -/

/-- The consecutive-late count once a forced release has counted the channel late (R143; DEDUCED, unsafe:
notes/assumptions/20.md). -/
def raisedLate (s : State) (c : Channel) : Nat := min 15 ((s.barrier.channels[c]).lateCount + 1)

/-- The channel is counted late at this frame start (R143). -/
def isLate (d : Decision) (s : State) (c : Channel) : Bool :=
  decide (d = .forced) && participates s c && !isReady s c

/-- The channel stalls at this frame start (R144). -/
def stalls (d : Decision) (s : State) (c : Channel) : Bool :=
  isLate d s c && decide (s.barrier.stallLimit ≠ 0 ∧ s.barrier.stallLimit ≤ raisedLate s c)

/-- What the barrier holds for a channel after this frame start, given the tag its promotion handed back. -/
def channelAfter (d : Decision) (s : State) (tag : Option Word32) (c : Channel) : BarrierChannel :=
  let b := s.barrier.channels[c]
  if b.enrolled then
    if d.isRelease && participates s c && isReady s c then { b with lateCount := 0, dark := false }
    else if isLate d s c then
      { b with
        lateCount := raisedLate s c
        stalled := b.stalled || stalls d s c
        dark := b.dark || (stalls d s c && decide (b.policy = .dark)) }
    else b
  else if tag.isSome then { b with dark := false } else b

/-- The cadence counter after an output frame start (R136). -/
def cadenceAfter (b : Barrier) : Nat := if b.cadence = 0 then b.reload - 1 else b.cadence - 1

/-- ω after the decision (R138, R140, R141). -/
def waitAfter (d : Decision) (s : State) : Nat := match d with
  | .notEligible => s.barrier.waitCount
  | .hold => raisedWait s
  | .emptySet | .normal | .forced => 0

/-- The barrier after an output frame start. -/
def barrierAfter (d : Decision) (turns : Vector Turning 12) (s : State) : Barrier :=
  { s.barrier with
    channels := Vector.ofFn fun c => channelAfter d s turns[c].tag c
    cadence := cadenceAfter s.barrier
    waitCount := waitAfter d s
    skyFrame := turnNumber d s }

/-! ### Tag skew (R149) -/

/-- The channels of P promoted at a release, each with the tag handed back, in ascending channel. -/
def promotedTags (d : Decision) (turns : Vector Turning 12) (s : State) : List (Channel × Word32) :=
  if d.isRelease then
    channels.filterMap fun c => if participates s c then turns[c].tag.map fun t => (c, t) else none
  else []

/-- The promoted channels whose tag differs from that of the lowest-numbered one, which is the reference. -/
def skewed (promoted : List (Channel × Word32)) : List (Channel × Word32) := match promoted with
  | [] => []
  | r :: rs => rs.filter fun p => decide (p.2 ≠ r.2)

/-! ### Counters of a frame start (R159, R161, R131) -/

/-- The counters that the barrier, the receivers and the timing generator increment at a frame start. -/
def frameCounts (d : Decision) (turns : Vector Turning 12) (s : State) : List CounterIx :=
  let skews := skewed (promotedTags d turns s)
  [Counter.frameStarts] ++ (if d.isRelease then [Counter.releases] else []) ++
    (if d = .forced then [Counter.forcedReleases] else []) ++
    (channels.flatMap fun c =>
      (if isLate d s c then [Counter.ofChannel c 4] else []) ++
        (if stalls d s c then [Counter.ofChannel c 5] else []) ++ turns[c].counts c) ++
    skews.map (fun p => Counter.ofChannel p.1 7) ++ (if skews.isEmpty then [] else [Counter.skewReleases])

/-! ### Notices of a frame start (R144, R149 to R151, R104, R130) -/

/-- Notices handed together under one name. -/
structure Emission where
  key : NoticeKey
  hands : List (Link × NoticeBody)
deriving DecidableEq, Repr

/-- The outcome a tile RELEASE notice reports (R150). -/
def releaseOutcome (turns : Vector Turning 12) (s : State) (c : Channel) : ReleaseOutcome :=
  if (s.barrier.channels[c]).stalled then .heldStalled
  else if isReady s c then .swapped turns[c].tag
  else .heldLate

/-- The RELEASE notices of a release: one to the tile link of every enrolled channel, and the summary to SL
(R150, R151). -/
def releaseHands (d : Decision) (turns : Vector Turning 12) (s : State) : List (Link × NoticeBody) :=
  let forced := decide (d = .forced)
  (channels.filter fun c => (s.barrier.channels[c]).enrolled).map
      (fun c => (tileLink c, .release (turnNumber d s) forced (releaseOutcome turns s c))) ++
    [(SL, .summary (turnNumber d s) forced (channelSet fun c => participates s c && isReady s c)
      (channelSet fun c => participates s c && !isReady s c) (swapTaken d s).isSome)]

/-- Everything that is emitted at a frame start, in the order barrier, engine, barrier, receivers. -/
def frameEmissions (d : Decision) (turns : Vector Turning 12) (s : State) : List Emission :=
  let promoted := promotedTags d turns s
  (channels.filter (stalls d s)).map (fun c =>
      { key := .stalled c
        hands := channelHands c (.stalled c (turnNumber d s) (s.barrier.channels[c]).policy) }) ++
    (match swapTaken d s with
      | none => []
      | some k => [{ key := .swapped
                     hands := commitHands k.link (.swapped k.link k.count (turnNumber d s) k.floorPart) }]) ++
    (match promoted with
      | [] => []
      | r :: _ => (skewed promoted).map fun p =>
          { key := .skew p.1, hands := channelHands p.1 (.skew p.1 p.2 r.1 r.2 (turnNumber d s)) }) ++
    (if d.isRelease then [{ key := .release, hands := releaseHands d turns s }] else []) ++
    channels.filterMap fun c => turns[c].lost.map fun f =>
      { key := .inputLost c, hands := channelHands c (.inputLost c f.1 f.2) }

/-- The stage of an emission within the barrier's own order: stalls and the swap, then skews, then the release; losses of
input stand outside it (R151; DEDUCED, unsafe: notes/assumptions/25.md). -/
def keyStage : NoticeKey → Option Nat
  | .stalled _ | .swapped => some 0
  | .skew _ => some 1
  | .release => some 2
  | .inputLost _ => none

/-- No emission of an earlier stage remains. -/
def mayGo (k : NoticeKey) (es : List Emission) : Bool := match keyStage k with
  | none => true
  | some n => es.all fun e => match keyStage e.key with
    | none => true
    | some m => decide (n ≤ m)

/-- The emissions in the order that is asked for, as far as R151 allows it; what it does not name follows in its own
order. -/
def orderEmissions : List NoticeKey → List Emission → List Emission
  | [], es => es
  | k :: ks, es =>
    if mayGo k es then
      es.filter (fun e => decide (e.key = k)) ++ orderEmissions ks (es.filter fun e => decide (e.key ≠ k))
    else orderEmissions ks es

/-- The notices of a frame start for the port of one link, in the order that the race asks for at that port: each port
judges its own, and no order between two ports shows (R197; DESIGN CHOICE, safe: notes/assumptions/5.md). -/
def noticesAt (race : FrameRace) (es : List Emission) (l : Link) : List (Link × NoticeBody) :=
  ((orderEmissions race.notices[l] es).flatMap Emission.hands).filter fun n => decide (n.1 = l)

/-- The notices of a frame start in the order they are handed, port by port. -/
def frameNotices (race : FrameRace) (d : Decision) (turns : Vector Turning 12) (s : State) : List (Link × NoticeBody) :=
  links.flatMap (noticesAt race (frameEmissions d turns s))

/-! ### Requests (R137, R152, R153, R155) -/

/-- The checks of ENROLL and WITHDRAW (R152, R153, R193). -/
def checkChannels (l : Link) (p : List Byte) : Except ResultCode Nat :=
  if p.length ≠ 2 then .error .malformed
  else if badChannelMask (u16 p 0) then .error .badField
  else if l ≠ SL ∧ u16 p 0 ≠ 2 ^ l.val then .error .notPermitted
  else .ok (u16 p 0)

/-- The enrollment set as a mask (R134). -/
def enrollmentSet (s : State) : ChannelSet := channelSet fun c => (s.barrier.channels[c]).enrolled

/-- A named channel joins the enrollment set (R152). -/
def BarrierChannel.enroll (b : BarrierChannel) : BarrierChannel :=
  if b.enrolled then b else { b with enrolled := true, stalled := false, lateCount := 0 }

/-- A named channel leaves the enrollment set (R153). -/
def BarrierChannel.withdraw (b : BarrierChannel) : BarrierChannel :=
  if b.enrolled then { b with enrolled := false, stalled := false, lateCount := 0 } else b

/-- Change what the barrier holds for each channel a mask names. -/
def updNamed (m : Nat) (f : BarrierChannel → BarrierChannel) (s : State) : State :=
  { s with barrier := { s.barrier with
      channels := updAll s.barrier.channels fun c b => if maskNames m c then f b else b } }

/-- ENROLL or WITHDRAW checked and answered with the enrollment set after it. -/
def enrollmentRequest (l : Link) (kind : Byte) (f : BarrierChannel → BarrierChannel) (p : List Byte) (s : State) : State :=
  match checkChannels l p with
  | .error code => refuse l kind code s
  | .ok m => accept l kind (.enrollment (enrollmentSet (updNamed m f s))) (updNamed m f s)

/-- ENROLL (R152). -/
def execEnroll (l : Link) (s : State) : Out :=
  takeRequest l (· == Kind.enroll) (fun m s => enrollmentRequest l Kind.enroll BarrierChannel.enroll m.payload s) s

/-- WITHDRAW (R153). -/
def execWithdraw (l : Link) (s : State) : Out :=
  takeRequest l (· == Kind.withdraw) (fun m s => enrollmentRequest l Kind.withdraw BarrierChannel.withdraw m.payload s) s

/-- A stall policy as sent (R193). -/
def policy? : Nat → Option StallPolicy
  | 0 => some .hold
  | 1 => some .dark
  | _ => none

/-- A checked SET_BARRIER: the values selected, clamped, and the policy with the channels that take it. -/
structure BarrierFields where
  timeout : Option Nat
  stallLimit : Option Nat
  lossLimit : Option Nat
  policy : Option (Nat × StallPolicy)
  clamped : Bool
deriving DecidableEq, Repr

/-- The checks of SET_BARRIER (R155, R193). -/
def checkSetBarrier (l : Link) (p : List Byte) : Except ResultCode BarrierFields :=
  let selTimeout := bitAt p 0 0
  let selStall := bitAt p 0 1
  let selLoss := bitAt p 0 2
  let selPolicy := bitAt p 0 3
  let fields : Option (Nat × StallPolicy) → BarrierFields := fun pol =>
    { timeout := if selTimeout then some (min 255 (u16 p 1)) else none
      stallLimit := if selStall then some (min 15 (u8 p 3)) else none
      lossLimit := if selLoss then some (min 15 (u8 p 4)) else none
      policy := pol
      clamped := (selTimeout && decide (255 < u16 p 1)) || (selStall && decide (15 < u8 p 3)) ||
        (selLoss && decide (15 < u8 p 4)) }
  if p.length ≠ 8 then .error .malformed
  else if l ≠ SL then .error .notPermitted
  else if (selTimeout || selStall || selLoss || selPolicy) = false then .error .badField
  else if selLoss = true ∧ u8 p 4 = 0 then .error .badField
  else if selPolicy then
    if badChannelMask (u16 p 5) then .error .badField
    else match policy? (u8 p 7) with
      | none => .error .badField
      | some pol => .ok (fields (some (u16 p 5, pol)))
  else .ok (fields none)

/-- SET_BARRIER carried out: the selected values, and every consecutive-late count to 0 (R155). -/
def Barrier.setFields (b : Barrier) (f : BarrierFields) : Barrier :=
  { b with
    timeout := f.timeout.getD b.timeout
    stallLimit := f.stallLimit.getD b.stallLimit
    lossLimit := f.lossLimit.getD b.lossLimit
    channels := updAll b.channels fun c k =>
      let k' := match f.policy with
        | none => k
        | some (m, pol) => if maskNames m c then { k with policy := pol } else k
      { k' with lateCount := 0 } }

/-- SET_BARRIER checked and answered with θ, σ and λ after it (R155). -/
def setBarrierRequest (l : Link) (p : List Byte) (s : State) : State :=
  match checkSetBarrier l p with
  | .error code => refuse l Kind.setBarrier code s
  | .ok f =>
    let b := s.barrier.setFields f
    acceptClamped l Kind.setBarrier f.clamped (.barrier b.timeout b.stallLimit b.lossLimit) { s with barrier := b }

/-- SET_BARRIER (R155). -/
def execSetBarrier (l : Link) (s : State) : Out :=
  takeRequest l (· == Kind.setBarrier) (fun m s => setBarrierRequest l m.payload s) s

/-- The checks of SET_CADENCE (R137, R193). -/
def checkSetCadence (l : Link) (p : List Byte) : Except ResultCode Nat :=
  if p.length ≠ 1 then .error .malformed
  else if l ≠ SL then .error .notPermitted
  else if u8 p 0 < 1 ∨ 4 < u8 p 0 then .error .badField
  else .ok (u8 p 0)

/-- SET_CADENCE checked and answered with the latch and the counter after it (R137). -/
def setCadenceRequest (l : Link) (p : List Byte) (s : State) : State :=
  match checkSetCadence l p with
  | .error code => refuse l Kind.setCadence code s
  | .ok k => accept l Kind.setCadence (.cadence k s.barrier.cadence) { s with barrier := { s.barrier with reload := k } }

/-- SET_CADENCE (R137). -/
def execSetCadence (l : Link) (s : State) : Out :=
  takeRequest l (· == Kind.setCadence) (fun m s => setCadenceRequest l m.payload s) s

end Sys2Proof.Machine
end

