-- ==== Sys2Proof/Machine/FrameStart.lean ====
section
/-! DEFINITION. The output frame start: the one event on which every block acts (R53, R54, R124, R136, R148, R161, R172,
R174), and the rows of the opcode table that name it by its cause or by what happens in it. -/

namespace Sys2Proof.Machine

/-! ### The fade and the outputs (R172, R174) -/

/-- The fade step: F moves by the distance left over the remaining count, rounded toward zero (R174). -/
def Fade.step (f : Fade) : Fade :=
  if 0 < f.remaining then
    { f with
      level := ((f.level : Int) + ((f.target : Int) - f.level).tdiv f.remaining).toNat
      remaining := f.remaining - 1 }
  else { f with level := f.target }

/-- The output state after an output frame start (R172). -/
def OutputState.advance : OutputState → OutputState
  | .starting => .active
  | .stopping => .disabled
  | .disabled => .disabled
  | .active => .active

/-! ### Frame contexts (R53, R54) -/

/-- The frame context of a channel as the state stands (R54). -/
def contextOf (s : State) (c : Channel) : FrameContext :=
  { bankIsB := s.tables.activeIsB
    shown := (s.receivers[c].bankIn .shown).getD 0
    fade := s.fade.level
    dark := (s.barrier.channels[c]).dark
    width := s.timing.width
    height := s.timing.height
    contentOff := false }

/-- Every engine fixes its frame context and begins a frame at pixel (0, 0) (R53, R54). -/
def beginFrames (s : State) : State :=
  { s with engines := updAll s.engines fun c e => { e with context := some (contextOf s c), x := 0, y := 0 } }

/-! ### The whole event -/

/-- The swap of this frame start, if the barrier instructs one and a commit is ARMED (R102). -/
def swapAt (d : Decision) (s : State) : State := match swapTaken d s with
  | none => s
  | some k => takeSwap k (turnNumber d s) s

/-- Every block's own state after an output frame start, the tables and the queue by the swap (R54). -/
def blocksAfter (d : Decision) (turns : Vector Turning 12) (s : State) : State :=
  { swapAt d s with
    receivers := Vector.ofFn fun c => turns[c].receiver
    barrier := barrierAfter d turns s
    fade := s.fade.step
    timing := { s.timing with outputs := updAll s.timing.outputs fun _ o => o.advance } }

/-- An output frame start, taken whole: the decision, the swap, the receivers, the barrier, the fade, the outputs, the
counters, the frame contexts and the notices. -/
def frameStart (race : FrameRace) (s : State) : State :=
  let d := decision s
  let turns := receiverTurns race d s
  handAll (frameNotices race d turns s)
    (beginFrames (bumpAll (frameCounts d turns s) (blocksAfter d turns s)))

/-! ### What brings it about (R161, R167) -/

/-- One period elapses in FREE, ACQUIRE or HOLDOVER: the frame start falls one period after the previous one, or at once if
that moment has passed (R161, R162; DESIGN CHOICE: notes/assumptions/7.md). None in LOCKED. -/
def periodElapsed (s : State) : Option State :=
  if s.timing.state = .locked then none
  else
    let now := max s.timing.clock (s.timing.lastFrameStart + s.timing.period)
    some { s with timing := { s.timing with clock := now, lastFrameStart := now } }

/-- In LOCKED, no edge by period + period div 256 after the last REF edge: a substitute is due once (R167; DEDUCED:
notes/assumptions/8.md). -/
def substituteDue (s : State) : Option State :=
  if s.timing.state = .locked ∧ s.timing.substituted = false then
    match s.timing.lastEdge with
    | none => none
    | some e =>
      let now := max s.timing.clock (e + s.timing.period + s.timing.period / 256)
      some { s with timing := { s.timing with clock := now, lastFrameStart := now, substituted := true } }
  else none

/-- The generator's next output frame start that needs no REF edge, if it has one. -/
def ownStart (s : State) : Option State := match periodElapsed s with
  | some s' => some s'
  | none => substituteDue s

/-- The output frame start is taken if the generator comes to one. -/
def takeStart (race : FrameRace) (start : State → Option State) (s : State) : State := match start s with
  | none => s
  | some s' => frameStart race s'

/-- OUTPUT_FRAME_START (R161). -/
def execOutputFrameStart (race : FrameRace) (s : State) : Out := takeEvent s (takeStart race periodElapsed)

/-- SUBSTITUTE_FRAME_START (R167). -/
def execSubstituteFrameStart (race : FrameRace) (s : State) : Out := takeEvent s (takeStart race substituteDue)

/-- ELIGIBLE_FRAME_START: the generator's next frame start, which finds the cadence counter at 0 (R136, R138). -/
def execEligibleFrameStart (race : FrameRace) (s : State) : Out :=
  takeEvent s fun s => if s.barrier.cadence = 0 then takeStart race ownStart s else s

/-- FORCED_RELEASE: the generator's next frame start, at which ω reaches θ (R138, R143). -/
def execForcedRelease (race : FrameRace) (s : State) : Out :=
  takeEvent s fun s => if decision s = .forced then takeStart race ownStart s else s

/-- STALL: the generator's next frame start, at which channel `c` stalls (R144). -/
def execStall (c : Channel) (race : FrameRace) (s : State) : Out :=
  takeEvent s fun s => if stalls (decision s) s c then takeStart race ownStart s else s

/-- The loss count of a channel reaches λ at the next frame start, and no header falls together with it (R124, R125). -/
def lossDue (race : FrameRace) (s : State) (c : Channel) : Bool :=
  decide (s.receivers[c].state ≠ .lost ∧ headerTogether race s c = false ∧
    s.barrier.lossLimit ≤ s.receivers[c].lossCount + 1)

/-- INPUT_LOST: the generator's next frame start, at which the input of channel `c` is declared lost (R124). -/
def execInputLost (c : Channel) (race : FrameRace) (s : State) : Out :=
  takeEvent s fun s => if lossDue race s c then takeStart race ownStart s else s

end Sys2Proof.Machine
end

