-- ==== Sys2Proof/Machine/Timing.lean ====
section
/-! DEFINITION. The Output Timing Generator and the Fade Unit: REF edges, lock and holdover, SET_TIMING, SET_RASTER, the
output states, and FADE (chapter 9). -/

namespace Sys2Proof.Machine

/-! ### Timing notices (R169) -/

/-- A TIMING notice to SL if the timing state has changed from `previous` (R169). -/
def notifyTiming (previous : TimingState) (s : State) : State :=
  if s.timing.state = previous then s
  else hand SL (.timing s.timing.state previous s.timing.source s.timing.period) s

/-! ### REF edges (R164 to R168) -/

/-- An interval in range (R164). -/
def intervalInRange (i : Nat) : Bool := decide (Config.minInterval ≤ i ∧ i ≤ Config.maxInterval)

/-- An interval within tolerance of the period (R166). -/
def withinTolerance (period i : Nat) : Bool := decide (i ≤ period + period / 256 ∧ period ≤ i + period / 256)

/-- The interval list with an interval appended; of four the oldest goes first (R165). -/
def appendInterval (is : List Nat) (i : Nat) : List Nat := (if 4 ≤ is.length then is.tail else is) ++ [i]

/-- The lock test: four intervals agreeing to within 1/512 of their mean (R165). -/
def lockTest (is : List Nat) : Bool :=
  decide (is.length = 4 ∧ 512 * (is.foldl max 0 - is.foldl min (is.headD 0)) ≤ is.sum / 4)

/-- An in-range interval in ACQUIRE: it is listed, and four agreeing ones lock the timing (R165). -/
def Timing.acquireInterval (t : Timing) (i : Nat) : Timing :=
  let is := appendInterval t.intervals i
  if lockTest is then { t with state := .locked, period := is.sum / 4, intervals := [], substituted := false }
  else { t with intervals := is }

/-- The timing goes to ACQUIRE with a list of intervals (R166, R168). -/
def Timing.toAcquire (t : Timing) (is : List Nat) : Timing :=
  { t with state := .acquire, intervals := is, substituted := false }

/-- The edge is an output frame start: LOCKED, within tolerance, and no substitute has taken its place (R166, R167). -/
def Timing.edgeStarts (t : Timing) (i : Nat) : Bool :=
  decide (t.state = .locked) && intervalInRange i && withinTolerance t.period i && !t.substituted

/-- The timing after an edge that ends an interval (R164 to R168). -/
def Timing.edge (t : Timing) (i : Nat) : Timing := match t.state with
  | .free => t
  | .acquire => if intervalInRange i then t.acquireInterval i else { t with intervals := [] }
  | .locked =>
    if intervalInRange i then
      if withinTolerance t.period i then { t with substituted := false } else t.toAcquire [i]
    else t.toAcquire []
  | .holdover => t.toAcquire []

/-- A REF edge under EXTERNAL becomes the last REF edge; its interval is acted on; in LOCKED it may be an output frame
start (R164 to R168). -/
def takeEdge (time : Nat) (race : FrameRace) (s : State) : State :=
  if s.timing.source = .internal then s
  else
    let now := max s.timing.clock time
    let t := { s.timing with lastEdge := some now, clock := now }
    match s.timing.lastEdge with
    | none => { s with timing := t }
    | some e =>
      if s.timing.edgeStarts (now - e) then
        frameStart race { s with timing := { t.edge (now - e) with lastFrameStart := now } }
      else notifyTiming s.timing.state { s with timing := t.edge (now - e) }

/-- REF_EDGE (R164). -/
def execRefEdge (time : Nat) (race : FrameRace) (s : State) : Out := takeEvent s (takeEdge time race)

/-- In LOCKED, 2 × period passes since the last REF edge: HOLDOVER, counted and notified (R167). The substitute came first
(DEDUCED, safe: notes/assumptions/8.md). -/
def enterHoldover (s : State) : State :=
  if s.timing.state = .locked ∧ s.timing.substituted = true then
    match s.timing.lastEdge with
    | none => s
    | some e =>
      let now := max s.timing.clock (e + 2 * s.timing.period)
      notifyTiming .locked
        (bump Counter.lockLosses
          { s with timing := { s.timing with state := .holdover, substituted := false, clock := now } })
  else s

/-- HOLDOVER_ENTRY (R167). -/
def execHoldoverEntry (s : State) : Out := takeEvent s enterHoldover

/-! ### SET_TIMING (R162, R163) -/

/-- A checked SET_TIMING: INTERNAL with a rate, or EXTERNAL. -/
inductive TimingChoice where
  | internal (rate : Nat)
  | external
deriving DecidableEq, Repr

/-- The checks of SET_TIMING (R162, R193). -/
def checkSetTiming (l : Link) (p : List Byte) : Except ResultCode TimingChoice :=
  if p.length ≠ 2 then .error .malformed
  else if l ≠ SL then .error .notPermitted
  else if u8 p 0 = 1 then .ok .external
  else if u8 p 0 ≠ 0 then .error .badField
  else if u8 p 1 < 24 ∨ 144 < u8 p 1 then .error .badField
  else .ok (.internal (u8 p 1))

/-- The timing after SET_TIMING (R162, R163). -/
def Timing.choose (t : Timing) : TimingChoice → Timing
  | .internal rate =>
    { t with source := .internal, rate := rate, period := 1000000000 / rate, state := .free, intervals := []
             lastEdge := none, substituted := false }
  | .external => { t with source := .external, state := .acquire, intervals := [], substituted := false }

/-- An accepted SET_TIMING answered; the TIMING notice goes out before or after the response (R162, R163, R169). -/
def answerTiming (l : Link) (order : Handing) (t : Timing) (s : State) : State :=
  let answer := accept l Kind.setTiming (.timing t.source t.state t.period)
  match order with
  | .responseFirst => notifyTiming s.timing.state (answer { s with timing := t })
  | .noticeFirst => answer (notifyTiming s.timing.state { s with timing := t })

/-- The moment of the generator's next output frame start has passed (R162). -/
def Timing.overdue (t : Timing) : Bool := decide (t.state = .free ∧ t.lastFrameStart + t.period < t.clock)

/-- SET_TIMING taken at a time, checked and answered. Under INTERNAL an output frame start whose moment has passed is taken
at once, after the response and the notice (R162; DEDUCED, unsafe: notes/assumptions/22.md). -/
def setTimingRequest (l : Link) (k : TimingTaking) (p : List Byte) (s : State) : State :=
  match checkSetTiming l p with
  | .error code => refuse l Kind.setTiming code s
  | .ok choice =>
    let t := { s.timing.choose choice with clock := max s.timing.clock k.time }
    let u := answerTiming l k.order t s
    if t.overdue then takeStart k.race periodElapsed u else u

/-- SET_TIMING (R162). -/
def execSetTiming (l : Link) (taking : TimingTaking) (s : State) : Out :=
  takeRequest l (· == Kind.setTiming) (fun m s => setTimingRequest l taking m.payload s) s

/-! ### SET_RASTER (R170) -/

/-- SET_RASTER checked and answered (R170). -/
def setRasterRequest (l : Link) (p : List Byte) (s : State) : State :=
  let w := u16 p 0
  let h := u16 p 2
  if p.length ≠ 4 then refuse l Kind.setRaster .malformed s
  else if l ≠ SL then refuse l Kind.setRaster .notPermitted s
  else if w < 640 ∨ 2560 < w ∨ h < 480 ∨ 1600 < h then refuse l Kind.setRaster .badField s
  else if s.mode = .showing then refuse l Kind.setRaster .held s
  else if s.timing.outputs.toList.any (fun o => decide (o ≠ .disabled)) then refuse l Kind.setRaster .outputsActive s
  else accept l Kind.setRaster (.raster w h) { s with timing := { s.timing with width := w, height := h } }

/-- SET_RASTER (R170). -/
def execSetRaster (l : Link) (s : State) : Out :=
  takeRequest l (· == Kind.setRaster) (fun m s => setRasterRequest l m.payload s) s

/-! ### The output states (R171) -/

/-- OUTPUT_ON acting on one output (R171). -/
def OutputState.turnOn : OutputState → OutputState
  | .disabled => .starting
  | .starting => .starting
  | .active => .active
  | .stopping => .active

/-- OUTPUT_OFF acting on one output (R171). -/
def OutputState.turnOff : OutputState → OutputState
  | .disabled => .disabled
  | .starting => .disabled
  | .active => .stopping
  | .stopping => .stopping

/-- The checks of OUTPUT_ON and OUTPUT_OFF (R171, R193). -/
def checkOutputs (l : Link) (p : List Byte) : Except ResultCode Nat :=
  if p.length ≠ 2 then .error .malformed
  else if l ≠ SL then .error .notPermitted
  else if badChannelMask (u16 p 0) then .error .badField
  else .ok (u16 p 0)

/-- The outputs that a mask names are changed (R171). -/
def Timing.updOutputs (t : Timing) (m : Nat) (f : OutputState → OutputState) : Timing :=
  { t with outputs := updAll t.outputs fun c o => if maskNames m c then f o else o }

/-- OUTPUT_ON or OUTPUT_OFF checked and answered with all twelve output states (R171). -/
def outputsRequest (l : Link) (kind : Byte) (f : OutputState → OutputState) (p : List Byte) (s : State) : State :=
  match checkOutputs l p with
  | .error code => refuse l kind code s
  | .ok m =>
    let t := s.timing.updOutputs m f
    accept l kind (.outputs t.outputs.toList) { s with timing := t }

/-- OUTPUT_ON (R171). -/
def execOutputOn (l : Link) (s : State) : Out :=
  takeRequest l (· == Kind.outputOn) (fun m s => outputsRequest l Kind.outputOn OutputState.turnOn m.payload s) s

/-- OUTPUT_OFF (R171). -/
def execOutputOff (l : Link) (s : State) : Out :=
  takeRequest l (· == Kind.outputOff) (fun m s => outputsRequest l Kind.outputOff OutputState.turnOff m.payload s) s

/-! ### FADE (R173) -/

/-- FADE checked and answered: a new target and remaining count, clamped; F stays (R173). -/
def fadeRequest (l : Link) (p : List Byte) (s : State) : State :=
  if p.length ≠ 4 then refuse l Kind.fade .malformed s
  else if l ≠ SL then refuse l Kind.fade .notPermitted s
  else
    let f : Fade := { s.fade with target := min 4096 (u16 p 0), remaining := min 4095 (u16 p 2) }
    acceptClamped l Kind.fade (decide (4096 < u16 p 0 ∨ 4095 < u16 p 2)) (.fade f) { s with fade := f }

/-- FADE (R173). -/
def execFade (l : Link) (s : State) : Out :=
  takeRequest l (· == Kind.fade) (fun m s => fadeRequest l m.payload s) s

end Sys2Proof.Machine
end

