-- ==== Sys2Proof/Machine/SkyPath.lean ====
section
/-! DEFINITION. The sky path: what a Pixel Engine computes for one output pixel, and its delivery (chapter 4). -/

namespace Sys2Proof.Machine

/-! ### Locating the pixel and interpolating the nodes (R59 to R63) -/

/-- Four like things at the corners of a square: upper left, upper right, lower left, lower right. -/
structure Corners (α : Type) where
  q00 : α
  q10 : α
  q01 : α
  q11 : α
deriving DecidableEq, Repr

/-- The same function at each corner. -/
def Corners.mapAll {α β : Type} (f : α → β) (q : Corners α) : Corners β :=
  { q00 := f q.q00, q10 := f q.q10, q01 := f q.q01, q11 := f q.q11 }

/-- Bilinear coefficients over a cell of side `n` at offset (a, b): they sum to n² (R59, R65). -/
def coefficients (n a b : Nat) : Corners Nat :=
  { q00 := (n - a) * (n - b), q10 := a * (n - b), q01 := (n - a) * b, q11 := a * b }

/-- The sum of the corners, each times its coefficient. -/
def weighted (c : Corners Nat) (q : Corners Int) : Int :=
  c.q00 * q.q00 + c.q10 * q.q10 + c.q01 * q.q01 + c.q11 * q.q11

/-- The node index of a grid position (R4). -/
def nodeIndex (column row : Nat) : Nat := Config.nodeColumns * row + column

/-- The four corner nodes of the cell of pixel (x, y) (R59). -/
def cornerNodes (b : Bank) (c : Channel) (x y : Nat) : Corners Node :=
  { q00 := b.node c (nodeIndex (x / 64) (y / 64))
    q10 := b.node c (nodeIndex (x / 64 + 1) (y / 64))
    q01 := b.node c (nodeIndex (x / 64) (y / 64 + 1))
    q11 := b.node c (nodeIndex (x / 64 + 1) (y / 64 + 1)) }

/-- Some corner is VOID (R60). -/
def anyVoid (q : Corners Node) : Bool := q.q00.isVoid || q.q10.isVoid || q.q01.isVoid || q.q11.isVoid

/-- The interpolated value of a node quantity at pixel (x, y), rounded toward minus infinity (R61). -/
def interpolate (x y : Nat) (q : Corners Int) : Int := (weighted (coefficients 64 (x % 64) (y % 64)) q + 2048) / 4096

/-- What is interpolated for one pixel: U, V, W and Λ (R61). -/
structure Sample where
  u : Int
  v : Int
  weight : Nat
  lift : Nat
deriving DecidableEq, Repr

/-- The four interpolated values of a pixel (R61, R63). -/
def sampleAt (q : Corners Node) (x y : Nat) : Sample :=
  { u := interpolate x y (q.mapAll Node.u)
    v := interpolate x y (q.mapAll Node.v)
    weight := (interpolate x y (q.mapAll fun n => (n.weight : Int))).toNat
    lift := (interpolate x y (q.mapAll fun n => (n.lift : Int))).toNat }

/-! ### Sampling the input frame (R64 to R68) -/

/-- The source position is out of range of an input raster (R64). -/
def outOfRange (p : Sample) (width height : Nat) : Bool :=
  decide (p.u < 0 ∨ p.v < 0 ∨ 16 * ((width : Int) - 1) < p.u ∨ 16 * ((height : Int) - 1) < p.v)

/-- The four neighbour pixels, those beyond the last column or row replaced by it (R65). -/
def neighbours (f : FrameBank) (width height u v : Nat) : Corners Pixel :=
  let right := min (u / 16 + 1) (width - 1)
  let below := min (v / 16 + 1) (height - 1)
  { q00 := f.pixel (u / 16) (v / 16), q10 := f.pixel right (v / 16)
    q01 := f.pixel (u / 16) below, q11 := f.pixel right below }

/-- The blend of four decoded values at fractions (fu, fv) (R67). -/
def blend (fu fv : Nat) (l : Corners Nat) : Nat :=
  let s := coefficients 16 fu fv
  (s.q00 * l.q00 + s.q10 * l.q10 + s.q01 * l.q01 + s.q11 * l.q11 + 128) / 256

/-- The sampled content of one colour at an in-range position: four neighbours decoded through the input LUT and blended
(R65 to R67). -/
def sampledContent (b : Bank) (f : FrameBank) (width height : Nat) (p : Sample) (k : Colour) : Nat :=
  let u := p.u.toNat
  let v := p.v.toNat
  blend (u % 16) (v % 16) ((neighbours f width height u v).mapAll fun q => b.inputEntry (Pixel.code q k))

/-- The content L of one colour: none in a dark channel, after RESTART or out of range (R56, R64, R68). -/
def content (b : Bank) (f : FrameBank) (ctx : FrameContext) (r : ChannelRecord) (p : Sample) (k : Colour) : Nat :=
  if ctx.dark || ctx.contentOff || outOfRange p r.width r.height then 0
  else sampledContent b f r.width r.height p k

/-! ### Scaling, floor and encoding (R69 to R72) -/

/-- A light scaled by a factor in units of 1/4096, rounded half up (R69, R70). -/
def scaled (light factor : Nat) : Nat := (light * factor + 2048) / 4096

/-- The linear output o (R69 to R71). -/
def linearOut (l weight gain fade lift headroom : Nat) : Nat :=
  lift + (scaled (scaled (scaled l weight) gain) fade * headroom + 32768) / 65536

/-- A linear output encoded through an output LUT (R72). -/
def encodeThrough (entry : Nat → Nat) (o : Nat) : Nat :=
  (entry (o / 64) * (64 - o % 64) + entry (o / 64 + 1) * (o % 64) + 32) / 64

/-- The code of one colour of a pixel in a non-void cell (R61 to R72). -/
def pathCode (b : Bank) (f : FrameBank) (ctx : FrameContext) (c : Channel) (p : Sample) (k : Colour) : Nat :=
  let r := b.records[c]
  encodeThrough (b.outputEntry c k)
    (linearOut (content b f ctx r p k) p.weight (r.gain k) ctx.fade p.lift b.sky.headroom)

/-- The codes of the sky path at pixel (x, y) (R59 to R72). -/
def skyPath (b : Bank) (f : FrameBank) (ctx : FrameContext) (c : Channel) (x y : Nat) : OutPixel :=
  let q := cornerNodes b c x y
  if anyVoid q then OutPixel.zero
  else
    let p := sampleAt q x y
    { r := pathCode b f ctx c p .r, g := pathCode b f ctx c p .g, b := pathCode b f ctx c p .b }

/-! ### Delivery (R53, R58) -/

/-- The output carries the sky path, and not code 0 (R58). -/
def OutputState.lit : OutputState → Bool
  | .active | .stopping => true
  | .disabled | .starting => false

/-- The codes the engine of channel `c` delivers for pixel (x, y) of a frame (R58). -/
def deliveredCodes (s : State) (c : Channel) (ctx : FrameContext) (x y : Nat) : OutPixel :=
  if s.timing.outputs[c].lit then
    skyPath (s.tables.bank ctx.bankIsB) (s.receivers[c].banks[ctx.shown]) ctx c x y
  else OutPixel.zero

/-- The engine after a pixel: x rises along the line, then y (R53). -/
def PixelEngine.advance (e : PixelEngine) (ctx : FrameContext) : PixelEngine :=
  if e.x + 1 < ctx.width then { e with x := e.x + 1 } else { e with x := 0, y := e.y + 1 }

/-- The engine of a channel delivers its next pixel: code 0 before the first frame, nothing after a frame's last pixel
(R53, R57; DEDUCED, unsafe: notes/assumptions/18.md). -/
def deliverPixel (c : Channel) (s : State) : State :=
  let e := s.engines[c]
  match e.context with
  | none => { s with engines := put s.engines c { e with out := OutPixel.zero } }
  | some ctx =>
    if e.y < ctx.height then
      { s with engines := put s.engines c { e.advance ctx with out := deliveredCodes s c ctx e.x e.y } }
    else s

/-- PIXEL_DELIVERY (R53). -/
def execPixelDelivery (c : Channel) (s : State) : Out := takeEvent s (deliverPixel c)

end Sys2Proof.Machine
end

