-- ==== Sys2Proof/Machine/Links.lean ====
section
/-! DEFINITION. The link receivers, the link break and the transmitters (chapter 10). -/

namespace Sys2Proof.Machine

/-! ### The link receiver (R181 to R184) -/

/-- What the receiver does besides changing its state: nothing, count a framing error, count a CRC mismatch, or offer a
complete message to the receive buffer. -/
inductive RxEvent where
  | quiet
  | framing
  | mismatch
  | complete (m : Message)
deriving DecidableEq, Repr

/-- The CRC of KIND, LENGTH and PAYLOAD as received (R180). -/
def messageCrc (kind : Byte) (payload : List Byte) : BitVec 16 :=
  crc (kind :: (leBytes 2 payload.length ++ payload))

/-- The header is complete: the LENGTH decides what follows (R181). -/
def headerDone (kind low high : Byte) : Rx × RxEvent :=
  let n := low.toNat + 256 * high.toNat
  if Config.maxPayload < n then (.hunt, .framing)
  else if n = 0 then (.check kind [] none, .quiet)
  else (.payload kind n [], .quiet)

/-- A message is judged by its CHECK (R183). -/
def judgeCheck (kind : Byte) (taken : List Byte) (low high : Byte) : RxEvent :=
  if messageCrc kind taken = high ++ low then .complete { kind := kind, payload := taken } else .mismatch

/-- One byte taken (R181). -/
def Rx.byte : Rx → Byte → Rx × RxEvent
  | .hunt, b => (if b = 0xA5#8 then .header [] else .hunt, .quiet)
  | .header [], b => (.header [b], .quiet)
  | .header [k], b => (.header [k, b], .quiet)
  | .header (k :: l :: _), b => headerDone k l b
  | .payload k n taken, b =>
    if taken.length + 1 < n then (.payload k n (taken ++ [b]), .quiet) else (.check k (taken ++ [b]) none, .quiet)
  | .check k taken none, b => (.check k taken (some b), .quiet)
  | .check k taken (some low), b => (.hunt, judgeCheck k taken low b)

/-- The bytes a message occupies in a receive buffer (R183). -/
def Message.room (m : Message) : Nat := 3 + m.payload.length

/-- The bytes a receive buffer holds (R183). -/
def bufferRoom (ms : List Message) : Nat := (ms.map Message.room).sum

/-- A complete message joins the receive buffer, or is an overrun (R183). -/
def offerMessage (l : Link) (m : Message) (s : State) : State :=
  if bufferRoom s.ports[l].buffer + m.room ≤ Config.bufferBytes then
    { s with ports := upd s.ports l fun p => { p with buffer := p.buffer ++ [m] } }
  else bump (Counter.ofLink l 2) s

/-- What a receiver's byte brings about (R181, R183). -/
def rxEffect (l : Link) : RxEvent → State → State
  | .quiet, s => s
  | .framing, s => bump (Counter.ofLink l 1) s
  | .mismatch, s => bump (Counter.ofLink l 0) s
  | .complete m, s => offerMessage l m s

/-- The receiver of a link goes to another state. -/
def setRx (l : Link) (r : Rx) (s : State) : State := { s with ports := upd s.ports l fun p => { p with rx := r } }

/-- A byte arrives on a receive line; a BROKEN line takes none (R181, R186). -/
def takeByte (l : Link) (b : Byte) (s : State) : State :=
  if s.ports[l].line = .isOpen then
    let r := s.ports[l].rx.byte b
    rxEffect l r.2 (setRx l r.1 s)
  else s

/-- LINK_BYTE (R181). -/
def execLinkByte (l : Link) (b : Byte) (s : State) : Out := takeEvent s (takeByte l b)

/-- The gap timer expires: it runs everywhere but in HUNT (R182). Its 100 µs are not modelled (DESIGN CHOICE, safe:
notes/assumptions/19.md). -/
def takeGap (l : Link) (s : State) : State :=
  if s.ports[l].rx = .hunt then s else bump (Counter.ofLink l 1) (setRx l .hunt s)

/-- GAP_TIMER_EXPIRY (R182). -/
def execGapTimerExpiry (l : Link) (s : State) : Out := takeEvent s (takeGap l)

/-! ### Link break (R185, R186) -/

/-- The port of a broken link; its mask, notices-lost flag and what its line last carried are kept (R185). -/
def Port.broken (p : Port) : Port :=
  { p with line := .broken, rx := .hunt, buffer := [], inProcess := none, outbound := [], sent := 0 }

/-- A link break is taken on an OPEN line (R185). -/
def takeBreak (l : Link) (s : State) : State :=
  if s.ports[l].line = .isOpen then { s with ports := upd s.ports l Port.broken } else s

/-- LINK_BREAK (R185). -/
def execLinkBreak (l : Link) (s : State) : Out := takeEvent s (takeBreak l)

/-- The receive line leaves its break level (R186). -/
def takeBreakEnd (l : Link) (s : State) : State :=
  { s with ports := upd s.ports l fun p => { p with line := .isOpen } }

/-- LINK_BREAK_END (R186). -/
def execLinkBreakEnd (l : Link) (s : State) : Out := takeEvent s (takeBreakEnd l)

/-! ### The transmitter (R195, R196) -/

/-- The transmitter sends up to `count` further bytes of the head message; after its last byte the message leaves the
queue (R195, R196; DESIGN CHOICE, unsafe: notes/assumptions/16.md). -/
def Port.transmit (count : Nat) (p : Port) : Port :=
  match p.outbound with
  | [] => p
  | m :: ms =>
    if p.line = .isOpen ∧ 0 < count then
      let chunk := (m.bytes.drop p.sent).take count
      if m.bytes.length ≤ p.sent + count then { p with outbound := ms, sent := 0, txLine := chunk }
      else { p with sent := p.sent + count, txLine := chunk }
    else p

/-- MESSAGE_TRANSMIT (R196). -/
def execMessageTransmit (l : Link) (count : Nat) (s : State) : Out :=
  takeEvent s fun s => { s with ports := upd s.ports l (Port.transmit count) }

end Sys2Proof.Machine
end

