-- ==== Sys2Proof/Machine/Status.lean ====
section
/-! DEFINITION. The reads: READ_NODES and READ_SEAM (R16, R35), READ_STATUS and READ_COUNTER (chapter 11). -/

namespace Sys2Proof.Machine

/-! ### READ_NODES (R16) -/

/-- A bank selector as sent: 0 ACTIVE, 1 SHADOW; the answer says whether it is SHADOW (R193). -/
def bankSelector? : Nat → Option Bool
  | 0 => some false
  | 1 => some true
  | _ => none

/-- The checks of READ_NODES (R16, R193): the bank read, the channel, the start node and the count. -/
def checkReadNodes (s : State) (p : List Byte) : Except ResultCode (Bank × Channel × Nat × Nat) :=
  if p.length ≠ 5 then .error .malformed
  else match bankSelector? (u8 p 0), chan? (u8 p 1) with
    | none, _ => .error .badField
    | some _, none => .error .badField
    | some shadow, some c =>
      if u8 p 4 = 0 ∨ 64 < u8 p 4 then .error .badField
      else if Config.nodesPerGrid < u16 p 2 + u8 p 4 then .error .badIndex
      else match readBank shadow s with
        | none => .error .notArmed
        | some b => .ok (b, c, u16 p 2, u8 p 4)

/-- A run of nodes of one channel, in index order (R16). -/
def Bank.nodeRun (b : Bank) (c : Channel) (start count : Nat) : List Node :=
  (List.range count).map fun i => b.node c (start + i)

/-- READ_NODES checked and answered (R16). -/
def readNodesRequest (l : Link) (p : List Byte) (s : State) : State :=
  match checkReadNodes s p with
  | .error code => refuse l Kind.readNodes code s
  | .ok (b, c, start, count) => accept l Kind.readNodes (.nodes (b.nodeRun c start count)) s

/-- READ_NODES (R16). -/
def execReadNodes (l : Link) (s : State) : Out :=
  takeRequest l (· == Kind.readNodes) (fun m s => readNodesRequest l m.payload s) s

/-! ### READ_SEAM (R35) -/

/-- The checks of READ_SEAM before the seam is looked up: the bank read and the seam id (R35, R193). -/
def checkReadSeam (s : State) (p : List Byte) : Except ResultCode (Bank × SeamId) :=
  if p.length ≠ 2 then .error .malformed
  else match bankSelector? (u8 p 0), seam? (u8 p 1) with
    | none, _ => .error .badField
    | some _, none => .error .badField
    | some shadow, some id => match readBank shadow s with
      | none => .error .notArmed
      | some b => .ok (b, id)

/-- READ_SEAM checked and answered, with the pool summary also where the seam is absent (R35). -/
def readSeamRequest (l : Link) (p : List Byte) (s : State) : State :=
  match checkReadSeam s p with
  | .error code => refuse l Kind.readSeam code s
  | .ok (b, id) => match b.seams[id] with
    | none =>
      respond l { kind := Kind.readSeam, code := .notFound, clamped := false, isPartial := false
                  body := .pool b.poolOccupancy b.seamCount } s
    | some r => accept l Kind.readSeam (.seam b.poolOccupancy b.seamCount id r) s

/-- READ_SEAM (R35). -/
def execReadSeam (l : Link) (s : State) : Out :=
  takeRequest l (· == Kind.readSeam) (fun m s => readSeamRequest l m.payload s) s

/-! ### READ_STATUS (R209 to R213) -/

/-- The global status record as the part stands (R210 to R212). -/
def globalStatus (s : State) : GlobalStatus :=
  { mode := s.mode
    source := s.timing.source
    timingState := s.timing.state
    rate := s.timing.rate
    period := s.timing.period
    width := s.timing.width
    height := s.timing.height
    floorMode := s.tables.active.sky.floorMode
    phiSet := s.tables.active.sky.phiSet
    tau := s.tables.active.sky.tau
    phi := s.tables.active.sky.phi
    commitState := s.engine.state
    last := s.engine.last
    occupancy := s.staging.occupancy
    recordCount := s.staging.records.length
    mark := s.staging.mark
    skyFrame := s.barrier.skyFrame
    enrolled := enrollmentSet s
    stalled := channelSet fun c => (s.barrier.channels[c]).stalled
    dark := channelSet fun c => (s.barrier.channels[c]).dark
    reload := s.barrier.reload
    cadence := s.barrier.cadence
    timeout := s.barrier.timeout
    stallLimit := s.barrier.stallLimit
    lossLimit := s.barrier.lossLimit
    waitCount := s.barrier.waitCount
    fade := s.fade }

/-- The status record of one channel as the part stands (R213). -/
def channelStatus (s : State) (c : Channel) : ChannelStatus :=
  let r := s.receivers[c]
  { channel := c
    receiver := r.state
    lossCount := r.lossCount
    banks := [(r.banks[0].state, r.banks[0].tag), (r.banks[1].state, r.banks[1].tag), (r.banks[2].state, r.banks[2].tag)]
    malformed := (r.bankIn .filling).map fun i => r.banks[i].malformed
    output := s.timing.outputs[c]
    barrier := s.barrier.channels[c]
    record := s.tables.active.records[c] }

/-- The checks of READ_STATUS (R209, R193): none selects the global record. -/
def checkReadStatus (p : List Byte) : Except ResultCode (Option Channel) :=
  if p.length ≠ 1 then .error .malformed
  else if u8 p 0 = 255 then .ok none
  else match chan? (u8 p 0) with
    | none => .error .badField
    | some c => .ok (some c)

/-- READ_STATUS checked and answered (R209). -/
def readStatusRequest (l : Link) (p : List Byte) (s : State) : State :=
  match checkReadStatus p with
  | .error code => refuse l Kind.readStatus code s
  | .ok none => accept l Kind.readStatus (.globalStatus (globalStatus s)) s
  | .ok (some c) => accept l Kind.readStatus (.channelStatus (channelStatus s c)) s

/-- READ_STATUS (R209). -/
def execReadStatus (l : Link) (s : State) : Out :=
  takeRequest l (· == Kind.readStatus) (fun m s => readStatusRequest l m.payload s) s

/-! ### READ_COUNTER (R207, R208) -/

/-- The link may read a counter index: SL every one; TLk the global counters and those of channel k and of link k
(R207). -/
def mayReadCounter (l : Link) (i : Nat) : Bool :=
  decide (l = SL ∨ i ≤ 8 ∨ (9 + 8 * l.val ≤ i ∧ i ≤ 16 + 8 * l.val) ∨ (105 + 4 * l.val ≤ i ∧ i ≤ 108 + 4 * l.val))

/-- The counter indexes of a run (R207). -/
def counterRun (first count : Nat) : List Nat := (List.range count).map (first + ·)

/-- The checks of READ_COUNTER (R207): the first index and the count. -/
def checkReadCounter (l : Link) (p : List Byte) : Except ResultCode (Nat × Nat) :=
  if p.length ≠ 3 then .error .malformed
  else if u8 p 2 = 0 ∨ 32 < u8 p 2 then .error .badField
  else if 156 < u16 p 0 + u8 p 2 - 1 then .error .badIndex
  else if (counterRun (u16 p 0) (u8 p 2)).any (fun i => !mayReadCounter l i) then .error .notPermitted
  else .ok (u16 p 0, u8 p 2)

/-- The value of a counter by its index; 0 above the last. -/
def counterAt (s : State) (i : Nat) : Word32 := s.counters.toList.getD i 0

/-- READ_COUNTER checked and answered (R207, R208). -/
def readCounterRequest (l : Link) (p : List Byte) (s : State) : State :=
  match checkReadCounter l p with
  | .error code => refuse l Kind.readCounter code s
  | .ok (first, count) =>
    accept l Kind.readCounter (.counters first ((counterRun first count).map (counterAt s))) s

/-- READ_COUNTER (R207). -/
def execReadCounter (l : Link) (s : State) : Out :=
  takeRequest l (· == Kind.readCounter) (fun m s => readCounterRequest l m.payload s) s

end Sys2Proof.Machine
end

