-- ==== Sys2Proof/Machine/Control.lean ====
section
/-! DEFINITION. The Request Unit's own requests, RESTART and hard reset (R188, R192, R194, R201 to R203). -/

namespace Sys2Proof.Machine

/-! ### SET_MODE, SET_NOTICES and unknown kinds -/

/-- A mode as sent (R192). -/
def mode? : Nat → Option Mode
  | 0 => some .setup
  | 1 => some .showing
  | _ => none

/-- SET_MODE checked and answered with the mode after it (R192). -/
def setModeRequest (l : Link) (p : List Byte) (s : State) : State :=
  if p.length ≠ 1 then refuse l Kind.setMode .malformed s
  else if l ≠ SL then refuse l Kind.setMode .notPermitted s
  else match mode? (u8 p 0) with
    | none => refuse l Kind.setMode .badField s
    | some m => accept l Kind.setMode (.mode m) { s with mode := m }

/-- SET_MODE (R192). -/
def execSetMode (l : Link) (s : State) : Out :=
  takeRequest l (· == Kind.setMode) (fun m s => setModeRequest l m.payload s) s

/-- The notice-enable mask as sent (R194). -/
def noticeMaskOf (p : List Byte) : NoticeMask :=
  { release := bitAt p 0 0, commit := bitAt p 0 1, channel := bitAt p 0 2, timing := bitAt p 0 3 }

/-- SET_NOTICES checked and answered with the link's own mask after it (R193, R194). -/
def setNoticesRequest (l : Link) (p : List Byte) (s : State) : State :=
  if p.length ≠ 1 then refuse l Kind.setNotices .malformed s
  else if 16 ≤ u8 p 0 then refuse l Kind.setNotices .badField s
  else
    accept l Kind.setNotices (.notices (noticeMaskOf p))
      { s with ports := upd s.ports l fun q => { q with mask := noticeMaskOf p } }

/-- SET_NOTICES (R194). -/
def execSetNotices (l : Link) (s : State) : Out :=
  takeRequest l (· == Kind.setNotices) (fun m s => setNoticesRequest l m.payload s) s

/-- UNKNOWN_KIND: a request of no known kind is refused, the response naming the KIND received (R188). -/
def execUnknownKind (l : Link) (s : State) : Out :=
  takeRequest l (fun k => !requestKinds.contains k) (fun m s => refuse l m.kind .unknownKind s) s

/-! ### RESTART (R202, R203) -/

/-- The engine after RESTART: a commit in flight or armed is recorded as ABORTED, the floor part kept; in IDLE nothing
changes (R108, R111). -/
def CommitEngine.restarted (e : CommitEngine) : CommitEngine :=
  match e.state, e.current with
  | .idle, _ => e
  | _, none => { e with state := .idle }
  | _, some c => e.finish (abortedOutcome c)

/-- The COMMIT notices RESTART causes (R109, R111). -/
def restartNotices (e : CommitEngine) : List (Link × NoticeBody) :=
  match e.state, e.current with
  | .idle, _ => []
  | _, none => []
  | _, some c => commitHands c.link (.aborted c.link c.count e.state .restart)

/-- Every block but the ports and the counters as RESTART leaves it: ACTIVE, the timing, the raster and the outputs are
kept (R15, R56, R88, R111, R133, R158, R176, R192). -/
def restartBlocks (s : State) : State :=
  { s with
    mode := .setup
    staging := Staging.reset
    engine := s.engine.restarted
    receivers := updAll s.receivers fun _ r => r.resetBanks
    barrier := Barrier.reset
    fade := Fade.reset
    engines := updAll s.engines fun _ e => { e with context := e.context.map fun x => { x with contentOff := true } } }

/-- A request in process is withdrawn and answered BUSY with an empty body (R203). -/
def Port.withdrawBusy (p : Port) : Port := match p.inProcess with
  | none => p
  | some q =>
    { p with
      inProcess := none
      outbound := p.outbound ++
        [.response { kind := q.kind, code := .busy, clamped := false, isPartial := false, body := .empty }] }

/-- Every request in process is answered BUSY (R203). -/
def answerBusy (s : State) : State := { s with ports := updAll s.ports fun _ p => p.withdrawBusy }

/-- RESTART carried out once its response is handed: the blocks, the BUSY responses, the ABORTED notices, and all
counters to 0, last (R202, R203, R206; DEDUCED, unsafe: notes/assumptions/15.md). -/
def restart (order : Handing) (s : State) : State :=
  let notices := restartNotices s.engine
  let t := match order with
    | .responseFirst => handAll notices (answerBusy (restartBlocks s))
    | .noticeFirst => answerBusy (handAll notices (restartBlocks s))
  { t with counters := Vector.replicate 157 0 }

/-- RESTART checked, answered and carried out (R202). -/
def restartRequest (l : Link) (order : Handing) (p : List Byte) (s : State) : State :=
  if p.length ≠ 0 then refuse l Kind.restart .malformed s
  else if l ≠ SL then refuse l Kind.restart .notPermitted s
  else restart order (accept l Kind.restart .empty s)

/-- RESTART (R202). -/
def execRestart (l : Link) (order : Handing) (s : State) : Out :=
  takeRequest l (· == Kind.restart) (fun m s => restartRequest l order m.payload s) s

/-! ### Hard reset (R201) -/

/-- The part at its hard-reset values. The codes of FREE frame banks and the contents of SHADOW, which no rule resets and
nothing can read, stay; so does the queue of waiting commands (R15, R57, R88, R112, R133, R158, R176, R178, R206). -/
def hardResetState (held : Bool) (s : State) : State :=
  { State.reset with
    resetHeld := held
    tables := s.tables.hardReset
    receivers := updAll s.receivers fun _ r => r.resetBanks
    pending := s.pending }

/-- HARD_RESET: RESET_N goes low. Every block goes to its hard-reset values and takes no event (R201; DEDUCED, unsafe:
notes/assumptions/17.md). -/
def execHardReset (s : State) : Out := .next (if s.resetHeld then s else hardResetState true s)

/-- HARD_RESET_END: RESET_N returns high. Events are taken again, the first frame start one period later (R201). -/
def execHardResetEnd (s : State) : Out := .next (if s.resetHeld then hardResetState false s else s)

end Sys2Proof.Machine
end

