-- ==== Sys2Proof/Machine/Dispatch.lean ====
section
/-! DEFINITION. The meaning of every command: one arm per row of spec/opcode_table.json, each one call of its meaning. -/

namespace Sys2Proof.Machine

/-- The effect of a command on everything but the queue of waiting commands. -/
def exec (i : Instr) (s : State) : Host.Outcome State Fault Refusal :=
  match i with
  | .stageNodes link => Sys2Proof.Machine.execStageNodes link s
  | .stageSeam link => Sys2Proof.Machine.execStageSeam link s
  | .dropSeam link => Sys2Proof.Machine.execDropSeam link s
  | .stageChannel link => Sys2Proof.Machine.execStageChannel link s
  | .stageFloor link => Sys2Proof.Machine.execStageFloor link s
  | .stageLut link => Sys2Proof.Machine.execStageLut link s
  | .discard link => Sys2Proof.Machine.execDiscard link s
  | .commit link => Sys2Proof.Machine.execCommit link s
  | .abortCommit link order => Sys2Proof.Machine.execAbortCommit link order s
  | .enroll link => Sys2Proof.Machine.execEnroll link s
  | .withdraw link => Sys2Proof.Machine.execWithdraw link s
  | .setBarrier link => Sys2Proof.Machine.execSetBarrier link s
  | .setCadence link => Sys2Proof.Machine.execSetCadence link s
  | .fade link => Sys2Proof.Machine.execFade link s
  | .outputOn link => Sys2Proof.Machine.execOutputOn link s
  | .outputOff link => Sys2Proof.Machine.execOutputOff link s
  | .setTiming link taking => Sys2Proof.Machine.execSetTiming link taking s
  | .setRaster link => Sys2Proof.Machine.execSetRaster link s
  | .setMode link => Sys2Proof.Machine.execSetMode link s
  | .restart link order => Sys2Proof.Machine.execRestart link order s
  | .setNotices link => Sys2Proof.Machine.execSetNotices link s
  | .readNodes link => Sys2Proof.Machine.execReadNodes link s
  | .readSeam link => Sys2Proof.Machine.execReadSeam link s
  | .readStatus link => Sys2Proof.Machine.execReadStatus link s
  | .readCounter link => Sys2Proof.Machine.execReadCounter link s
  | .unknownKind link => Sys2Proof.Machine.execUnknownKind link s
  | .stagingTurn => Sys2Proof.Machine.execStagingTurn s
  | .applyingCompletes => Sys2Proof.Machine.execApplyingCompletes s
  | .checkingCompletes => Sys2Proof.Machine.execCheckingCompletes s
  | .normalizingCompletes => Sys2Proof.Machine.execNormalizingCompletes s
  | .flooringCompletes => Sys2Proof.Machine.execFlooringCompletes s
  | .liftingCompletes => Sys2Proof.Machine.execLiftingCompletes s
  | .outputFrameStart race => Sys2Proof.Machine.execOutputFrameStart race s
  | .eligibleFrameStart race => Sys2Proof.Machine.execEligibleFrameStart race s
  | .forcedRelease race => Sys2Proof.Machine.execForcedRelease race s
  | .stall c race => Sys2Proof.Machine.execStall c race s
  | .inputLost c race => Sys2Proof.Machine.execInputLost c race s
  | .pixelDelivery c => Sys2Proof.Machine.execPixelDelivery c s
  | .frameHeader c tag => Sys2Proof.Machine.execFrameHeader c tag s
  | .line c pixels => Sys2Proof.Machine.execLine c pixels s
  | .frameEnd c => Sys2Proof.Machine.execFrameEnd c s
  | .refEdge time race => Sys2Proof.Machine.execRefEdge time race s
  | .substituteFrameStart race => Sys2Proof.Machine.execSubstituteFrameStart race s
  | .holdoverEntry => Sys2Proof.Machine.execHoldoverEntry s
  | .linkByte link byte => Sys2Proof.Machine.execLinkByte link byte s
  | .gapTimerExpiry link => Sys2Proof.Machine.execGapTimerExpiry link s
  | .linkBreak link => Sys2Proof.Machine.execLinkBreak link s
  | .linkBreakEnd link => Sys2Proof.Machine.execLinkBreakEnd link s
  | .messageTransmit link count => Sys2Proof.Machine.execMessageTransmit link count s
  | .hardReset => Sys2Proof.Machine.execHardReset s
  | .hardResetEnd => Sys2Proof.Machine.execHardResetEnd s

end Sys2Proof.Machine
end

