-- ==== Sys2Proof/Safety.lean ====
section
/-! DEFINITION. The terms in which claims about the DS12 are stated: what a request waiting at a port is, what answering it
leaves, when an output frame start is taken, and the invariants of the part. -/

namespace Sys2Proof.Machine

/-! ### Requests at a port (R187, R188, R204) -/

/-- The port of a link can take its oldest request, which has this KIND and payload, and RESET_N is high (R187). -/
abbrev Waits (l : Link) (k : Byte) (p : List Byte) (s : State) : Prop :=
  s.resetHeld = false ∧ s.ports[l].inProcess = none ∧ s.ports[l].outbound.all OutMessage.isNotice = true ∧
    s.ports[l].buffer.head? = some { kind := k, payload := p }

/-- A refusal of a request of KIND `k`, with an empty body (R190). -/
def refusal (k : Byte) (code : ResultCode) : Response :=
  { kind := k, code := code, clamped := false, isPartial := false, body := .empty }

/-- An ACCEPTED response to a request of KIND `k` (R190). -/
def acceptance (k : Byte) (clamped : Bool) (body : Body) : Response :=
  { kind := k, code := .accepted, clamped := clamped, isPartial := false, body := body }

/-- The part with the oldest request of a link gone from its receive buffer and one response at the tail of its outbound
queue: nothing else differs. -/
def answered (l : Link) (r : Response) (s : State) : State :=
  let p := s.ports[l]
  { s with ports := put s.ports l { p with buffer := p.buffer.tail, outbound := p.outbound ++ [.response r] } }

/-- The part with the oldest request of a link gone from its receive buffer and in process, its record presented to the
Staging Arbiter: nothing else differs. -/
def presented (l : Link) (k : Byte) (e : Edit) (clamped : Bool) (s : State) : State :=
  let q : Presented := { kind := k, record := { origin := l, edit := e }, clamped := clamped }
  { s with ports := put s.ports l { s.ports[l] with buffer := s.ports[l].buffer.tail, inProcess := some q } }

/-- The link whose oldest request a command takes. -/
def requestLink : Instr → Option Link
  | .stageNodes l | .stageSeam l | .dropSeam l | .stageChannel l | .stageFloor l | .stageLut l | .discard l | .commit l
  | .abortCommit l _ | .enroll l | .withdraw l | .setBarrier l | .setCadence l | .fade l | .outputOn l | .outputOff l
  | .setTiming l _ | .setRaster l | .setMode l | .restart l _ | .setNotices l | .readNodes l | .readSeam l
  | .readStatus l | .readCounter l | .unknownKind l => some l
  | .stagingTurn | .applyingCompletes | .checkingCompletes | .normalizingCompletes | .flooringCompletes
  | .liftingCompletes | .outputFrameStart _ | .eligibleFrameStart _ | .forcedRelease _ | .stall _ _ | .inputLost _ _
  | .pixelDelivery _ | .frameHeader _ _ | .line _ _ | .frameEnd _ | .refEdge _ _ | .substituteFrameStart _
  | .holdoverEntry | .linkByte _ _ | .gapTimerExpiry _ | .linkBreak _ | .linkBreakEnd _ | .messageTransmit _ _
  | .hardReset | .hardResetEnd => none

/-- The kind code of a request command, by the kind code table; none for UNKNOWN_KIND and for events (R204). -/
def requestKind : Instr → Option Byte
  | .stageNodes _ => some 0x20#8
  | .stageSeam _ => some 0x21#8
  | .dropSeam _ => some 0x22#8
  | .stageChannel _ => some 0x23#8
  | .stageFloor _ => some 0x24#8
  | .stageLut _ => some 0x25#8
  | .discard _ => some 0x26#8
  | .commit _ => some 0x30#8
  | .abortCommit _ _ => some 0x31#8
  | .enroll _ => some 0x40#8
  | .withdraw _ => some 0x41#8
  | .setBarrier _ => some 0x42#8
  | .setCadence _ => some 0x43#8
  | .fade _ => some 0x50#8
  | .outputOn _ => some 0x51#8
  | .outputOff _ => some 0x52#8
  | .setTiming _ _ => some 0x53#8
  | .setRaster _ => some 0x54#8
  | .setMode _ => some 0x60#8
  | .restart _ _ => some 0x61#8
  | .setNotices _ => some 0x62#8
  | .readNodes _ => some 0x70#8
  | .readSeam _ => some 0x71#8
  | .readStatus _ => some 0x72#8
  | .readCounter _ => some 0x73#8
  | .unknownKind _ | .stagingTurn | .applyingCompletes | .checkingCompletes | .normalizingCompletes | .flooringCompletes
  | .liftingCompletes | .outputFrameStart _ | .eligibleFrameStart _ | .forcedRelease _ | .stall _ _ | .inputLost _ _
  | .pixelDelivery _ | .frameHeader _ _ | .line _ _ | .frameEnd _ | .refEdge _ _ | .substituteFrameStart _
  | .holdoverEntry | .linkByte _ _ | .gapTimerExpiry _ | .linkBreak _ | .linkBreakEnd _ | .messageTransmit _ _
  | .hardReset | .hardResetEnd => none

/-- The 25 kind codes of requests (R204). -/
def kindTable : List Byte :=
  [0x20#8, 0x21#8, 0x22#8, 0x23#8, 0x24#8, 0x25#8, 0x26#8, 0x30#8, 0x31#8, 0x40#8, 0x41#8, 0x42#8, 0x43#8, 0x50#8, 0x51#8,
   0x52#8, 0x53#8, 0x54#8, 0x60#8, 0x61#8, 0x62#8, 0x70#8, 0x71#8, 0x72#8, 0x73#8]

/-- A command refuses the oldest request of a link, of KIND `k`: the response goes out, and nothing else differs (R190). -/
abbrev Refuses (i : Instr) (l : Link) (k : Byte) (code : ResultCode) (s : State) : Prop :=
  exec i s = .next (answered l (refusal k code) s)

/-- The KIND a request command takes: its own, or for UNKNOWN_KIND any that is not in the table. -/
def takesKind (i : Instr) (k : Byte) : Prop :=
  requestKind i = some k ∨ ((∃ l, i = .unknownKind l) ∧ k ∉ kindTable)

/-- The payload length a kind requires, from the request payload table; `l` matters for DISCARD alone (R204). -/
def requiredLength (l : Link) (k : Byte) (p : List Byte) : Nat :=
  if k = 0x20#8 then 5 + 8 * u8 p 3
  else if k = 0x21#8 then 3 + u8 p 1 + 4 * u8 p 2 * u8 p 1
  else if k = 0x22#8 then 1
  else if k = 0x23#8 then 14
  else if k = 0x24#8 then 5
  else if k = 0x25#8 then 5 + 2 * u16 p 3
  else if k = 0x26#8 then (if l = SL then 1 else 0)
  else if k = 0x30#8 ∨ k = 0x31#8 ∨ k = 0x61#8 then 0
  else if k = 0x40#8 ∨ k = 0x41#8 ∨ k = 0x51#8 ∨ k = 0x52#8 then 2
  else if k = 0x42#8 then 8
  else if k = 0x43#8 ∨ k = 0x60#8 ∨ k = 0x62#8 ∨ k = 0x72#8 then 1
  else if k = 0x50#8 then 4
  else if k = 0x53#8 then 2
  else if k = 0x54#8 then 4
  else if k = 0x70#8 then 5
  else if k = 0x71#8 then 2
  else 3

/-- The responses in an outbound queue. -/
def responsesIn (q : List OutMessage) : List Response := q.filterMap fun m => match m with
  | .response r => some r
  | .notice _ => none

/-- The number of notices in an outbound queue. -/
def noticeCount (q : List OutMessage) : Nat := (q.filter OutMessage.isNotice).length

/-! ### Output frame starts (R161, R166, R167) -/

/-- A channel of the participating set (R138). -/
abbrev InP (s : State) (c : Channel) : Prop :=
  (s.barrier.channels[c]).enrolled = true ∧ (s.barrier.channels[c]).stalled = false

/-- A channel with a READY frame bank (R135). -/
abbrev Ready (s : State) (c : Channel) : Prop := ∃ i : Fin 3, (s.receivers[c].banks[i]).state = .ready

/-- The generator comes to an output frame start of its own: in FREE, ACQUIRE or HOLDOVER by the period, in LOCKED by a
substitute that has not been taken yet (R161, R167). -/
abbrev OwnStart (s : State) : Prop :=
  s.timing.state ≠ .locked ∨ (s.timing.substituted = false ∧ s.timing.lastEdge.isSome = true)

/-- ω reaches θ at this eligible frame start while a channel of P is not ready (R138). -/
abbrev ForcedDue (s : State) : Prop :=
  s.barrier.cadence = 0 ∧ (∃ c, InP s c ∧ ¬ Ready s c) ∧ s.barrier.timeout ≠ 0 ∧
    s.barrier.timeout ≤ min 65535 (s.barrier.waitCount + 1)

/-- The interval that a REF edge at `time` ends, when the last edge was at `e`. -/
def intervalAt (s : State) (time e : Nat) : Nat := max s.timing.clock time - e

/-- The frame in reception has just begun, and the race says that its header fell together with the frame start and was
taken first (R125). -/
abbrev HeaderFirst (race : FrameRace) (s : State) (c : Channel) : Prop :=
  race.together[c] = true ∧ s.receivers[c].state = .receiving ∧ s.receivers[c].lossCount = 0 ∧
    s.receivers[c].lineCount = 0

/-- The input of a channel is declared lost at an output frame start: its loss count reaches λ, and no header fell together
with the frame start and was taken first (R124, R125). -/
abbrev LostNow (race : FrameRace) (s : State) (c : Channel) : Prop :=
  s.receivers[c].state ≠ .lost ∧ s.barrier.lossLimit ≤ s.receivers[c].lossCount + 1 ∧ ¬ HeaderFirst race s c

/-- A command at which an output frame start is taken, with the order it gives the blocks. -/
def FrameStartTaken (s : State) : Instr → FrameRace → Prop
  | .outputFrameStart r, race => race = r ∧ s.resetHeld = false ∧ s.timing.state ≠ .locked
  | .substituteFrameStart r, race =>
    race = r ∧ s.resetHeld = false ∧ s.timing.state = .locked ∧ s.timing.substituted = false ∧
      s.timing.lastEdge.isSome = true
  | .refEdge time r, race =>
    race = r ∧ s.resetHeld = false ∧ s.timing.source = .external ∧ s.timing.state = .locked ∧
      s.timing.substituted = false ∧
      ∃ e, s.timing.lastEdge = some e ∧ Config.minInterval ≤ intervalAt s time e ∧
        intervalAt s time e ≤ Config.maxInterval ∧
        intervalAt s time e ≤ s.timing.period + s.timing.period / 256 ∧
        s.timing.period ≤ intervalAt s time e + s.timing.period / 256
  | .eligibleFrameStart r, race => race = r ∧ s.resetHeld = false ∧ OwnStart s ∧ s.barrier.cadence = 0
  | .forcedRelease r, race => race = r ∧ s.resetHeld = false ∧ OwnStart s ∧ ForcedDue s
  | .stall c r, race =>
    race = r ∧ s.resetHeld = false ∧ OwnStart s ∧ ForcedDue s ∧ InP s c ∧ ¬ Ready s c ∧ s.barrier.stallLimit ≠ 0 ∧
      s.barrier.stallLimit ≤ min 15 ((s.barrier.channels[c]).lateCount + 1)
  | .inputLost c r, race =>
    race = r ∧ s.resetHeld = false ∧ OwnStart s ∧ LostNow r s c
  | .stageNodes _, _ | .stageSeam _, _ | .dropSeam _, _ | .stageChannel _, _ | .stageFloor _, _ | .stageLut _, _
  | .discard _, _ | .commit _, _ | .abortCommit _ _, _ | .enroll _, _ | .withdraw _, _ | .setBarrier _, _
  | .setCadence _, _ | .fade _, _ | .outputOn _, _ | .outputOff _, _ | .setTiming _ _, _ | .setRaster _, _
  | .setMode _, _ | .restart _ _, _ | .setNotices _, _ | .readNodes _, _ | .readSeam _, _ | .readStatus _, _
  | .readCounter _, _ | .unknownKind _, _ | .stagingTurn, _ | .applyingCompletes, _ | .checkingCompletes, _
  | .normalizingCompletes, _ | .flooringCompletes, _ | .liftingCompletes, _ | .pixelDelivery _, _ | .frameHeader _ _, _
  | .line _ _, _ | .frameEnd _, _ | .holdoverEntry, _ | .linkByte _ _, _ | .gapTimerExpiry _, _ | .linkBreak _, _
  | .linkBreakEnd _, _ | .messageTransmit _ _, _ | .hardReset, _ | .hardResetEnd, _ => False

/-- A release is taken at an output frame start: it is eligible, P is not empty, and every channel of P is ready or ω
reaches θ (R138). -/
abbrev ReleaseDue (s : State) : Prop :=
  s.barrier.cadence = 0 ∧ (∃ c, InP s c) ∧
    ((∀ c, InP s c → Ready s c) ∨
      (s.barrier.timeout ≠ 0 ∧ s.barrier.timeout ≤ min 65535 (s.barrier.waitCount + 1)))

/-- An armed commit is swapped in at an output frame start: at a release and at an eligible frame start with P empty
(R102, R140, R141). -/
abbrev SwapDue (s : State) (k : CurrentCommit) : Prop :=
  s.engine.state = .armed ∧ s.engine.current = some k ∧ s.barrier.cadence = 0 ∧
    (ReleaseDue s ∨ ∀ c, ¬ InP s c)

/-- Some armed commit is swapped in at an output frame start (R102). -/
abbrev AnySwap (s : State) : Prop :=
  s.engine.state = .armed ∧ s.engine.current.isSome = true ∧ s.barrier.cadence = 0 ∧ (ReleaseDue s ∨ ∀ c, ¬ InP s c)

/-- A swap is taken that changes the input raster of a channel (R105). -/
abbrev RasterSwap (s : State) (c : Channel) : Prop :=
  AnySwap s ∧ ((s.tables.active.records[c]).width ≠ (s.tables.shadow.records[c]).width ∨
    (s.tables.active.records[c]).height ≠ (s.tables.shadow.records[c]).height)

/-- A channel with a READY bank is asked to promote it at an output frame start: not enrolled, or of P at a release
(R126). -/
abbrev PromotionDue (s : State) (c : Channel) : Prop :=
  ((s.barrier.channels[c]).enrolled = false ∨ (InP s c ∧ ReleaseDue s)) ∧ Ready s c

/-- One action stands before another in the order of a receiver. -/
abbrev Before (o : ReceiverOrder) (a b : ReceiverAct) : Prop := (orderActs o).idxOf a < (orderActs o).idxOf b

/-- The promotion of a channel hands a tag back: that of its READY bank, unless a raster change taken first has freed the
bank (R126, R129). -/
abbrev HandsBack (race : FrameRace) (s : State) (c : Channel) (tag : Word32) : Prop :=
  PromotionDue s c ∧ ¬ (RasterSwap s c ∧ Before race.receivers[c] .raster .promote) ∧
    ∃ j : Fin 3, (s.receivers[c].banks[j]).state = .ready ∧ (s.receivers[c].banks[j]).tag = tag

/-- A channel of P hands a tag back at a release, and the tag is another than `reference` (R149). -/
abbrev SkewedFrom (race : FrameRace) (s : State) (reference : Word32) (c : Channel) (tag : Word32) : Prop :=
  InP s c ∧ HandsBack race s c tag ∧ tag ≠ reference

/-- The notices handed to the port of a link at an output frame start, in order. -/
def handedTo (race : FrameRace) (s : State) (l : Link) : List NoticeBody :=
  (noticesAt race (frameEmissions (decision s) (receiverTurns race (decision s) s) s) l).map Prod.snd

/-- Where the barrier's order puts a notice of a frame start: stalls and the swap, then skews, then the release (R151). -/
def noticeStage : NoticeBody → Option Nat
  | .stalled _ _ _ | .swapped _ _ _ _ => some 0
  | .skew _ _ _ _ _ => some 1
  | .release _ _ _ | .summary _ _ _ _ _ => some 2
  | .armed _ _ _ | .failed _ _ _ _ | .aborted _ _ _ _ | .inputLost _ _ _ | .inputRestored _ _ | .rejoined _ _
  | .timing _ _ _ _ => none

/-- A SET_TIMING INTERNAL taken at `time` finds that one new period after the previous output frame start has passed
(R162). -/
def StartAtOnce (time : Nat) (s : State) : Prop :=
  ∃ p, Waits 12 0x53#8 p s ∧ p.length = 2 ∧ u8 p 0 = 0 ∧ 24 ≤ u8 p 1 ∧ u8 p 1 ≤ 144 ∧
    s.timing.lastFrameStart + 1000000000 / u8 p 1 < max s.timing.clock time

/-! ### Commits and the sky (R26, R33, R48) -/

/-- The engine is in a phase with a current commit, and RESET_N is high. -/
abbrev PhaseAt (s : State) (st : CommitState) (k : CurrentCommit) : Prop :=
  s.resetHeld = false ∧ s.engine.state = st ∧ s.engine.current = some k

/-- The ports a COMMIT notice is handed to, in order: the committing link, then SL, once where they are one (R109). -/
def toCommitter (l : Link) (b : NoticeBody) : List (Link × NoticeBody) :=
  if l = SL then [(SL, b)] else [(l, b), (SL, b)]

/-- The failure of a commit: IDLE, no current commit, the mark cleared, the outcome recorded, the failure counted, and the
FAILED notice handed. `b` is what SHADOW is left as (R98, R109). -/
def failed (k : CurrentCommit) (e : CommitError) (i : Item) (b : Bank) (s : State) : State :=
  let outcome : OutcomePart :=
    { result := .failed, error := e, item := some i, link := some k.link, count := k.count, swapFrame := none }
  handAll (toCommitter k.link (.failed k.link k.count e (some i)))
    { s with
      engine := { state := .idle, current := none, last := { s.engine.last with outcome := outcome } }
      staging := { s.staging with mark := none }
      tables := s.tables.setShadow b
      counters := upd s.counters 3 (· + 1) }

/-- What the walk of CHECKING leaves: no node is claimed twice, every claimed node is non-VOID and carries the reference of
its point, every other node carries none (R26 to R28). -/
structure Walked (b : Bank) : Prop where
  distinct : (b.claims.map fun q => (q.channel, q.node)).Nodup
  claimed : ∀ q ∈ b.claims, (b.node q.channel q.node).isVoid = false ∧ (b.node q.channel q.node).seamRef = some q.ref
  others : ∀ (c : Channel) (i : Nat), (∀ q ∈ b.claims, ¬ (q.channel = c ∧ q.node = i)) → (b.node c i).seamRef = none

/-- At every seam point the derived weights of the members sum to 4096 (R33). -/
def WeightsBalanced (b : Bank) : Prop :=
  ∀ p ∈ b.points, (p.members.map fun m => (b.node m.1 m.2.node).weight).sum = 4096

/-- The sum of β over the member channels of the seam with an id; 0 where there is none (R38). -/
def sumOfBeta (b : Bank) (id : Nat) : Nat := match b.seams.toList[id]? with
  | some (some m) => (m.members.map fun c => (b.records[c]).beta).sum
  | some none | none => 0

/-- The black of a node: the β of its channel where it is in no seam, and else the sum of β over the members of its seam
(R38). -/
def blackAt (b : Bank) (c : Channel) (n : Node) : Nat := match n.seamRef with
  | none => (b.records[c]).beta
  | some r => sumOfBeta b r.seam

/-- At every seam point the lifts of the members sum to what the black of the seam leaves of Φ (R48). -/
def LiftsBalanced (b : Bank) : Prop :=
  ∀ p ∈ b.points, (p.members.map fun m => (b.node m.1 m.2.node).lift).sum = b.sky.phi - sumOfBeta b p.seam

/-- The seams of a bank as CHECKING leaves them: walked, with at most 2048 points (R25 to R29). -/
def Registered (b : Bank) : Prop := Walked b ∧ b.poolOccupancy ≤ 2048

/-- The balance of the committed sky, with what each phase of a commit has done towards it (R26, R29, R33, R34, R48). -/
structure SkyBalanced (s : State) : Prop where
  registered : Registered s.tables.active
  walked : s.engine.state = .normalizing ∨ s.engine.state = .flooring ∨ s.engine.state = .lifting ∨
    s.engine.state = .armed → Registered s.tables.shadow
  leads : s.engine.state = .flooring ∨ s.engine.state = .lifting →
    ∀ k, s.engine.current = some k → k.leads = s.tables.shadow.leads
  weighed : s.engine.state = .flooring ∨ s.engine.state = .lifting ∨ s.engine.state = .armed →
    WeightsBalanced s.tables.shadow
  armed : s.engine.state = .armed → LiftsBalanced s.tables.shadow
  active : WeightsBalanced s.tables.active ∧ LiftsBalanced s.tables.active

/-! ### Codes as they stand on the line (R190, R200, R204, R210, R211, R213) -/

/-- A flag. -/
def Wire.flag (b : Bool) : Byte := if b then 1#8 else 0#8

/-- Result codes. -/
def Wire.code : ResultCode → Byte
  | .accepted => 0x00#8
  | .unknownKind => 0x01#8
  | .malformed => 0x02#8
  | .notPermitted => 0x03#8
  | .held => 0x04#8
  | .busy => 0x05#8
  | .badField => 0x06#8
  | .badIndex => 0x07#8
  | .stageFull => 0x08#8
  | .notFound => 0x09#8
  | .notArmed => 0x0A#8
  | .nothingToAbort => 0x0B#8
  | .outputsActive => 0x0C#8

/-- Modes. -/
def Wire.mode (m : Mode) : Byte := if m = .setup then 0#8 else 1#8

/-- Timing sources. -/
def Wire.source (c : TimingSource) : Byte := if c = .internal then 0#8 else 1#8

/-- Timing states. -/
def Wire.timing : TimingState → Byte
  | .free => 0#8
  | .acquire => 1#8
  | .locked => 2#8
  | .holdover => 3#8

/-- Floor modes. -/
def Wire.floorMode (m : FloorMode) : Byte := if m = .fixed then 0#8 else 1#8

/-- Commit states. -/
def Wire.commit : CommitState → Byte
  | .idle => 0#8
  | .applying => 1#8
  | .checking => 2#8
  | .normalizing => 3#8
  | .flooring => 4#8
  | .lifting => 5#8
  | .armed => 6#8

/-- Results of a commit. -/
def Wire.result : CommitResult → Byte
  | .none => 0#8
  | .done => 1#8
  | .failed => 2#8
  | .aborted => 3#8

/-- Error codes of a commit. -/
def Wire.error : CommitError → Byte
  | .none => 0#8
  | .pointPoolFull => 1#8
  | .seamVoidNode => 2#8
  | .nodeConflict => 3#8
  | .zeroCoverage => 4#8

/-- Receiver states. -/
def Wire.receiver : ReceiverState → Byte
  | .lost => 0#8
  | .idle => 1#8
  | .receiving => 2#8

/-- Bank states. -/
def Wire.bank : BankState → Byte
  | .free => 0#8
  | .filling => 1#8
  | .ready => 2#8
  | .shown => 3#8

/-- Output states. -/
def Wire.output : OutputState → Byte
  | .disabled => 0#8
  | .starting => 1#8
  | .active => 2#8
  | .stopping => 3#8

/-- Stall policies. -/
def Wire.policy (c : StallPolicy) : Byte := if c = .hold then 0#8 else 1#8

/-- A link, or FFh for none. -/
def Wire.link : Option Link → Byte
  | none => 0xFF#8
  | some l => BitVec.ofNat 8 l.val

/-- A channel. -/
def Wire.channel (c : Channel) : Byte := BitVec.ofNat 8 c.val

/-- A notice-enable mask: bit 0 RELEASE, bit 1 COMMIT, bit 2 CHANNEL, bit 3 TIMING. -/
def Wire.notices (m : NoticeMask) : Byte :=
  (if m.release then 1#8 else 0#8) ||| (if m.commit then 2#8 else 0#8) ||| (if m.channel then 4#8 else 0#8) |||
    (if m.timing then 8#8 else 0#8)

/-- The item a failure names: FFh and FFFFh for none. -/
def Wire.item : Option Item → List Byte
  | none => [0xFF#8, 0xFF#8, 0xFF#8]
  | some (.point seam point) => leBytes 1 seam ++ leBytes 2 point
  | some (.node c node) => Wire.channel c :: leBytes 2 node

/-- The floor part of a commit: Φ, FLOOR_CLAMPED and the shortfall count. -/
def Wire.floor (f : FloorPart) : List Byte := leBytes 2 f.phi ++ [Wire.flag f.floorClamped] ++ leBytes 2 f.shortfall

/-- A tag, a counter or a frame number. -/
def Wire.word (w : Word32) : List Byte := leBytes 4 w.toNat

/-- A set of channels: a 2-byte mask. -/
def Wire.channels (m : ChannelSet) : List Byte := leBytes 2 m.toNat

/-- A tag that may be absent, behind its presence byte. -/
def Wire.tag : Option Word32 → List Byte
  | none => [0#8, 0xFF#8, 0xFF#8, 0xFF#8, 0xFF#8]
  | some w => 1#8 :: Wire.word w

/-- A message as it stands on the line (R179, R180). -/
def Wire.frame (kind : Byte) (payload : List Byte) : List Byte :=
  [0xA5#8, kind] ++ leBytes 2 payload.length ++ payload ++
    leBytes 2 (crc ([kind] ++ leBytes 2 payload.length ++ payload)).toNat

/-! ### Frames of commands -/

/-- The part with another port at one link, and nothing else different. -/
def withPort (l : Link) (p : Port) (s : State) : State := { s with ports := put s.ports l p }

/-- The part with one counter up by one, and nothing else different. -/
def counted (n : CounterIx) (s : State) : State := { s with counters := put s.counters n (s.counters[n] + 1) }

/-- Nothing of a port differs but its outbound queue and its notices-lost flag. -/
def PortHeld (p q : Port) : Prop := q = { p with outbound := q.outbound, lostFlag := q.lostFlag }

/-- The records a DISCARD may remove and those it leaves in place: those behind the mark and those before it (R80). -/
def markCount (s : State) : Nat := (s.staging.mark.map Mark.count).getD 0

/-- The part after an accepted DISCARD of the records that `hit` selects (R83 to R85). -/
def discarded (l : Link) (hit : EditRecord → Bool) (s : State) : State :=
  let before := s.staging.records.take (markCount s)
  let behind := s.staging.records.drop (markCount s)
  answered l
    { kind := 0x26#8, code := .accepted, clamped := false, isPartial := before.any hit
      body := .removed (behind.filter hit).length }
    { s with staging := { s.staging with records := before ++ behind.filter fun r => !hit r } }

/-- A run of commands, each taken from the state the one before it left; a stop ends it. -/
def runAll : List Instr → State → Out
  | [], s => .next s
  | i :: is, s => match exec i s with
    | .next t => runAll is t
    | .fault f => .fault f
    | .refused r => .refused r

/-! ### Invariants of the part -/

/-- A link receiver holds no more bytes than its state allows (R181). -/
def rxOk : Rx → Prop
  | .hunt => True
  | .header kept => kept.length ≤ 2
  | .payload _ n taken => taken.length < n ∧ n ≤ 2048
  | .check _ taken _ => taken.length ≤ 2048

/-- A Link Port: at most one response, and none while a request is in process; at most 15 notices; at most 4096 bytes of
requests; a BROKEN line has taken nothing; no more of the head message sent than it has (R178, R183, R186, R187, R195). -/
structure PortOk (p : Port) : Prop where
  responses : (responsesIn p.outbound).length ≤ 1
  inProcess : p.inProcess.isSome = true → responsesIn p.outbound = []
  notices : noticeCount p.outbound ≤ 15
  buffer : bufferRoom p.buffer ≤ 4096
  payloads : ∀ m ∈ p.buffer, m.payload.length ≤ 2048
  rx : rxOk p.rx
  broken : p.line = .broken → p.rx = .hunt ∧ p.buffer = [] ∧ p.inProcess = none
  sent : match p.outbound with
    | [] => p.sent = 0
    | m :: _ => p.sent < m.bytes.length

/-- Every port is sound. -/
def PortsSound (s : State) : Prop := ∀ l : Link, PortOk s.ports[l]

/-- The queue, the mark and the Commit Engine agree: no more than 8192 units; a mark and a current-commit record exactly
while the engine is not IDLE; the mark counts the first records and their units (R73, R80, R90). -/
structure CommitSound (s : State) : Prop where
  occupancy : s.staging.occupancy ≤ 8192
  current : s.engine.state = .idle ↔ s.engine.current = none
  mark : s.engine.state = .idle ↔ s.staging.mark = none
  counts : ∀ m k, s.staging.mark = some m → s.engine.current = some k → m.count = k.count ∧ m.units = k.units
  marked : ∀ m, s.staging.mark = some m →
    m.count ≤ s.staging.records.length ∧ m.units = unitsOf (s.staging.records.take m.count)

/-- An Input Receiver: exactly one bank SHOWN, at most one READY, one FILLING exactly in RECEIVING; counts in range; the
codes in canonical form (R116, R117, R119). -/
structure ReceiverOk (r : Receiver) : Prop where
  shown : (r.banks.toList.filter fun b => decide (b.state = .shown)).length = 1
  ready : (r.banks.toList.filter fun b => decide (b.state = .ready)).length ≤ 1
  filling : (r.banks.toList.filter fun b => decide (b.state = .filling)).length = if r.state = .receiving then 1 else 0
  loss : r.lossCount ≤ 15 ∧ (r.state ≠ .lost → r.lossCount ≤ 14)
  lines : r.lineCount ≤ 65535
  codes : ∀ i : Fin 3, r.banks[i].wf = true

/-- The receivers are sound, and every value of the barrier lies in its range; a stalled channel is enrolled (R134). -/
structure FramesSound (s : State) : Prop where
  receivers : ∀ c : Channel, ReceiverOk s.receivers[c]
  late : ∀ c : Channel, (s.barrier.channels[c]).lateCount ≤ 15
  stalled : ∀ c : Channel, (s.barrier.channels[c]).stalled = true → (s.barrier.channels[c]).enrolled = true
  reload : 1 ≤ s.barrier.reload ∧ s.barrier.reload ≤ 4
  cadence : s.barrier.cadence ≤ 3
  wait : s.barrier.waitCount ≤ 65535
  limits : s.barrier.timeout ≤ 255 ∧ s.barrier.stallLimit ≤ 15 ∧ 1 ≤ s.barrier.lossLimit ∧ s.barrier.lossLimit ≤ 15

/-- The timing and the fade lie in their ranges: FREE exactly under INTERNAL; intervals are listed in ACQUIRE alone, at
most four, all in range; LOCKED has a last edge (R160, R165, R170, R173). -/
structure TimingSound (s : State) : Prop where
  source : s.timing.source = .internal ↔ s.timing.state = .free
  edge : s.timing.source = .internal → s.timing.lastEdge = none
  rate : 24 ≤ s.timing.rate ∧ s.timing.rate ≤ 144
  period : Config.minInterval ≤ s.timing.period ∧ s.timing.period ≤ Config.maxInterval
  listed : s.timing.intervals ≠ [] → s.timing.state = .acquire
  intervals : s.timing.intervals.length ≤ 4 ∧
    ∀ i ∈ s.timing.intervals, Config.minInterval ≤ i ∧ i ≤ Config.maxInterval
  locked : s.timing.state = .locked → s.timing.lastEdge.isSome = true
  substituted : s.timing.substituted = true → s.timing.state = .locked
  raster : 640 ≤ s.timing.width ∧ s.timing.width ≤ 2560 ∧ 480 ≤ s.timing.height ∧ s.timing.height ≤ 1600
  fade : s.fade.level ≤ 4096 ∧ s.fade.target ≤ 4096 ∧ s.fade.remaining ≤ 4095

/-- A node's fields lie in their ranges (R5). -/
def nodeOk (n : Node) : Prop :=
  -32768 ≤ n.u ∧ n.u ≤ 32767 ∧ -32768 ≤ n.v ∧ n.v ≤ 32767 ∧ n.baseWeight ≤ 4096 ∧ n.weight ≤ 4096 ∧ n.lift ≤ 16383

/-- A channel record lies in its ranges (R9). -/
def recordOk (r : ChannelRecord) : Prop :=
  256 ≤ r.width ∧ r.width ≤ 2560 ∧ 256 ≤ r.height ∧ r.height ≤ 1600 ∧ r.beta ≤ 4095 ∧ r.gainR ≤ 4096 ∧ r.gainG ≤ 4096 ∧
    r.gainB ≤ 4096

/-- A seam record: two to four distinct members, 1 to 96 points, one entry a member, nodes of the grid (R19). -/
def seamOk (m : Seam) : Prop :=
  2 ≤ m.members.length ∧ m.members.length ≤ 4 ∧ m.members.Nodup ∧ 1 ≤ m.points.length ∧ m.points.length ≤ 96 ∧
    ∀ p ∈ m.points, p.length = m.members.length ∧ ∀ e ∈ p, e.node < 1066 ∧ e.coverage ≤ 65535

/-- Every field of a bank lies in its range, every sparse table is canonical and lists addresses of its table alone, and
H is 65535 − Φ (R4, R5, R9, R11, R12, R14, R19, R41, R42). -/
structure BankOk (b : Bank) : Prop where
  canonical : b.wf = true
  nodes : ∀ c : Channel, ∀ e ∈ b.grids[c].entries, e.1 < 1066 ∧ nodeOk e.2
  records : ∀ c : Channel, recordOk b.records[c]
  inputLut : ∀ e ∈ b.inputLut.entries, e.1 < 1024 ∧ e.2 ≤ 65535
  outputLuts : ∀ i : Fin 36, ∀ e ∈ b.outputLuts[i].entries, e.1 < 1025 ∧ e.2 ≤ 1023
  seams : ∀ i : SeamId, ∀ m, b.seams[i] = some m → seamOk m
  sky : b.sky.phiSet ≤ 16383 ∧ b.sky.tau ≤ 64 ∧ b.sky.phi ≤ 16383 ∧ b.sky.headroom = 65535 - b.sky.phi

/-- Every derived lift of a bank lies between 0 and its Φ (R48). -/
def LiftsBounded (b : Bank) : Prop := ∀ (c : Channel) (i : Nat), (b.node c i).lift ≤ b.sky.phi

/-- The values an edit record would write lie in their ranges (R8, R9, R13, R14, R19). -/
def editOk : Edit → Prop
  | .nodes _ start mask es => start + es.length ≤ 1066 ∧ ∀ e ∈ es, -32768 ≤ e.u ∧ e.u ≤ 32767 ∧ -32768 ≤ e.v ∧ e.v ≤ 32767 ∧
      (mask.baseWeight = true → e.baseWeight ≤ 4096)
  | .seam _ m => seamOk m
  | .seamDrop _ => True
  | .channel _ mask v =>
    (mask.raster = true → 256 ≤ v.width ∧ v.width ≤ 2560 ∧ 256 ≤ v.height ∧ v.height ≤ 1600) ∧
      (mask.beta = true → v.beta ≤ 4095) ∧
      (mask.gains = true → v.gainR ≤ 4096 ∧ v.gainG ≤ 4096 ∧ v.gainB ≤ 4096)
  | .floor mask _ phiSet tau => (mask.phiSet = true → phiSet ≤ 16383) ∧ (mask.tau = true → tau ≤ 64)
  | .lut .input start vs => start + vs.length ≤ 1024 ∧ ∀ v ∈ vs, v ≤ 65535
  | .lut (.output _ _) start vs => start + vs.length ≤ 1025 ∧ ∀ v ∈ vs, v ≤ 1023

/-- The tables and the picture: both banks and every record on its way to them in range, the lifts of ACTIVE and of an
ARMED SHADOW within their Φ, every frame in progress drawn from ACTIVE, and every code on every pixel output at most 1023
(R5, R48, R54, R71, R72). -/
structure PictureSound (s : State) : Prop where
  bankA : BankOk s.tables.bankA
  bankB : BankOk s.tables.bankB
  queued : ∀ r ∈ s.staging.records, editOk r.edit
  presented : ∀ (l : Link) (q : Presented), s.ports[l].inProcess = some q → editOk q.record.edit
  active : LiftsBounded s.tables.active
  armed : s.engine.state = .armed → LiftsBounded s.tables.shadow
  contexts : ∀ (c : Channel) (x : FrameContext), s.engines[c].context = some x →
    x.bankIsB = s.tables.activeIsB ∧ x.fade ≤ 4096
  fade : s.fade.level ≤ 4096 ∧ s.fade.target ≤ 4096
  codes : ∀ c : Channel, s.engines[c].out.r ≤ 1023 ∧ s.engines[c].out.g ≤ 1023 ∧ s.engines[c].out.b ≤ 1023

/-- What a tile link TLk may have staged: nodes, channel record and output LUTs of channel k alone, seams with k as a
member, drops; never the floor and never the input LUT (R8, R9, R13, R14, R21, R191). -/
def withinRole (l : Link) : Edit → Prop
  | .nodes c _ _ _ | .channel c _ _ | .lut (.output c _) _ _ => l = SL ∨ l.val = c.val
  | .seam _ m => l = SL ∨ ∃ c ∈ m.members, l.val = c.val
  | .seamDrop _ => True
  | .floor _ _ _ _ | .lut .input _ _ => l = SL

/-- Every record queued or presented lies within the role of the link it came from (R73, R191). -/
structure RolesKept (s : State) : Prop where
  queued : ∀ r ∈ s.staging.records, withinRole r.origin r.edit
  presented : ∀ (l : Link) (q : Presented), s.ports[l].inProcess = some q →
    q.record.origin = l ∧ withinRole l q.record.edit

/-- The releases counter and the sky frame number agree (R141, R205, R206). -/
def ReleasesCounted (s : State) : Prop := s.counters[Counter.releases] = s.barrier.skyFrame

end Sys2Proof.Machine
end

