-- ==== Sys2Proof/Certificates/Slice0/Obligations.lean ====
section
/-! DEFINITION. The statements about the DS12 that are to be proved. -/

open Sys2Proof Sys2Proof.Machine

/-! ### The part as a whole -/

/-- A step takes the command at the front of the queue and is its meaning on the part with the queue's rest; with an empty
queue the part idles (the queue and the idling are the model's own: notes/assumptions/2.md). -/
def Obligations.StepTakesFrontCommand : Prop :=
  (∀ (c : Instr) (rest : List Instr) (s : State), s.pending = c :: rest → step s = exec c { s with pending := rest }) ∧
    ∀ s : State, s.pending = [] → step s = .next s

/-- No command stops the part, and none touches the queue of waiting commands. That no command ever stops is the model's
reading (notes/assumptions/26.md), and the queue is the model's own (notes/assumptions/2.md). -/
def Obligations.EveryCommandCompletes : Prop :=
  ∀ (i : Instr) (s : State), ∃ t, exec i s = .next t ∧ t.pending = s.pending

/-- While hard reset holds, no block takes an event: every command but HARD_RESET_END leaves the part as it is
(ch. 10, RESETS AS EVENTS). -/
def Obligations.HeldResetTakesNoEvent : Prop :=
  ∀ (i : Instr) (s : State), s.resetHeld = true → i ≠ .hardResetEnd → exec i s = .next s

/-- HARD_RESET and HARD_RESET_END put every block at its hard-reset values, the first with RESET_N held and the second with
it released. That the values are there as soon as RESET_N goes low is the model's reading (notes/assumptions/17.md: the spec
gives them at its release). Bank A becomes ACTIVE with the dark defaults and bank B SHADOW with what it held, whichever was
ACTIVE before (the model's choice: notes/assumptions/10.md, 27.md). The codes of the FREE frame banks, which no rule resets,
stay (notes/assumptions/10.md), and the model's clock, engine position and transmit line are at their reset values
(notes/assumptions/7.md, 8.md, 16.md, 18.md). -/
def Obligations.HardResetValues : Prop :=
  ∀ (i : Instr) (held : Bool) (s : State),
    (i = .hardReset ∧ s.resetHeld = false ∧ held = true) ∨ (i = .hardResetEnd ∧ s.resetHeld = true ∧ held = false) →
    ∃ t, exec i s = .next t ∧ t.resetHeld = held ∧ t.mode = .setup ∧
      t.tables = { bankA := Bank.dark, bankB := s.tables.bankB, activeIsB := false } ∧
      t.staging = { records := [], mark := none, pointer := 0 } ∧
      t.engine = { state := .idle, current := none
                   last := { outcome := { result := .none, error := .none, item := none, link := none, count := 0
                                          swapFrame := none }
                             floor := { phi := 0, floorClamped := false, shortfall := 0 } } } ∧
      (∀ c : Channel, t.receivers[c].state = .lost ∧ t.receivers[c].lossCount = 0 ∧ t.receivers[c].lineCount = 0 ∧
        t.receivers[c].banks[0] = { state := .shown, tag := 0, malformed := false, rows := Table.empty } ∧
        t.receivers[c].banks[1] = { s.receivers[c].banks[1] with state := .free, tag := 0, malformed := false } ∧
        t.receivers[c].banks[2] = { s.receivers[c].banks[2] with state := .free, tag := 0, malformed := false }) ∧
      t.barrier = { channels := Vector.replicate 12
                      { enrolled := false, policy := .hold, stalled := false, lateCount := 0, dark := false }
                    reload := 1, cadence := 0, waitCount := 0, timeout := 2, stallLimit := 8, lossLimit := 4
                    skyFrame := 0 } ∧
      t.timing = { source := .internal, state := .free, rate := 60, period := 16666666, intervals := [], lastEdge := none
                   width := 1920, height := 1200, outputs := Vector.replicate 12 .disabled, lastFrameStart := 0
                   substituted := false, clock := 0 } ∧
      t.fade = { level := 0, target := 0, remaining := 0 } ∧
      (∀ c : Channel, t.engines[c] = { context := none, x := 0, y := 0, out := { r := 0, g := 0, b := 0 } }) ∧
      (∀ n : CounterIx, t.counters[n] = 0) ∧
      (∀ l : Link, t.ports[l] =
        { line := .isOpen, rx := .hunt, buffer := [], inProcess := none, outbound := [], sent := 0, txLine := []
          mask := { release := true, commit := true, channel := true, timing := decide (l = 12) }, lostFlag := false }) ∧
      t.pending = s.pending

/-! ### Requests in general -/

/-- A port takes no request while its buffer is empty, a request of the link is in process, or its outbound queue holds a
response: a request command then changes nothing (ch. 10, REQUESTS; notes/assumptions/1.md). A response that is being sent
still bars the port, by the model's reading (notes/assumptions/16.md). -/
def Obligations.PortTakesNoRequest : Prop :=
  ∀ (i : Instr) (l : Link) (s : State), requestLink i = some l →
    (s.ports[l].buffer = [] ∨ s.ports[l].inProcess.isSome = true ∨ responsesIn s.ports[l].outbound ≠ []) →
    exec i s = .next s

/-- A request taken leaves the receive buffer and gets exactly one response, naming its KIND; or it stays in process with
its record presented, and then no response is queued yet (ch. 10, REQUESTS). -/
def Obligations.OneResponseEach : Prop :=
  ∀ (i : Instr) (l : Link) (k : Byte) (p : List Byte) (s : State),
    requestLink i = some l → takesKind i k → Waits l k p s →
    ∃ t, exec i s = .next t ∧ t.ports[l].buffer = s.ports[l].buffer.tail ∧
      ((t.ports[l].inProcess = none ∧ ∃ r, responsesIn t.ports[l].outbound = [r] ∧ r.kind = k) ∨
        (responsesIn t.ports[l].outbound = [] ∧
          ∃ q, t.ports[l].inProcess = some q ∧ q.kind = k ∧ q.record.origin = l))

/-- A request that is answered with anything but ACCEPTED when it is taken changes nothing but its own port's buffer and
outbound queue (ch. 10, REQUESTS). -/
def Obligations.RefusedChangesNothing : Prop :=
  ∀ (i : Instr) (l : Link) (k : Byte) (p : List Byte) (s t : State) (r : Response),
    requestLink i = some l → takesKind i k → Waits l k p s →
    exec i s = .next t → responsesIn t.ports[l].outbound = [r] → r.code ≠ .accepted → t = answered l r s

/-- A request of a KIND outside the table is refused UNKNOWN_KIND, the response naming the KIND received; a request of
another payload length than its kind requires is refused MALFORMED; nothing else changes (ch. 10, REQUESTS). -/
def Obligations.KindAndLengthChecked : Prop :=
  (∀ (l : Link) (k : Byte) (p : List Byte) (s : State), Waits l k p s → k ∉ kindTable →
    exec (.unknownKind l) s = .next (answered l (refusal k .unknownKind) s)) ∧
  ∀ (i : Instr) (l : Link) (k : Byte) (p : List Byte) (s : State),
    requestLink i = some l → requestKind i = some k → Waits l k p s → p.length ≠ requiredLength l k p →
    exec i s = .next (answered l (refusal k .malformed) s)

/-- The requests that only the show link may send are refused NOT_PERMITTED from a tile link and change nothing (ch. 10,
ROLES AND MODES). -/
def Obligations.ShowRequestsNotPermitted : Prop :=
  ∀ (i : Instr) (l : Link) (k : Byte) (p : List Byte) (s : State),
    requestLink i = some l → requestKind i = some k →
    k ∈ [0x24#8, 0x42#8, 0x43#8, 0x50#8, 0x51#8, 0x52#8, 0x53#8, 0x54#8, 0x60#8, 0x61#8] →
    l ≠ 12 → Waits l k p s → p.length = requiredLength l k p →
    exec i s = .next (answered l (refusal k .notPermitted) s)

/-! ### Staging requests (chapters 1, 2 and 5) -/

/-- A STAGE_NODES within its bounds, of the sender's own channel, presents its NODES record, base weights above 4096 taken
as 4096 where selected; from a tile link in SHOW mode it is refused HELD. Before that it is refused BAD_FIELD for a channel, a
count or a mask out of range, BAD_INDEX for a run past the grid, and NOT_PERMITTED for another channel from a tile link, in
this order (ch. 1, NODE RECORDS; ch. 10, ROLES AND MODES). -/
def Obligations.StageNodesPresents : Prop :=
  (∀ (l : Link) (p : List Byte) (s : State), Waits l 0x20#8 p s → p.length = 5 + 8 * u8 p 3 →
    (let bad := 12 ≤ u8 p 0 ∨ u8 p 3 = 0 ∨ 64 < u8 p 3 ∨ (bitAt p 4 0 || bitAt p 4 1 || bitAt p 4 2) = false
     (bad → Refuses (.stageNodes l) l 0x20#8 .badField s) ∧
     (¬ bad → 1066 < u16 p 1 + u8 p 3 → Refuses (.stageNodes l) l 0x20#8 .badIndex s) ∧
     (¬ bad → u16 p 1 + u8 p 3 ≤ 1066 → l ≠ 12 → l.val ≠ u8 p 0 → Refuses (.stageNodes l) l 0x20#8 .notPermitted s))) ∧
  ∀ (l : Link) (p : List Byte) (s : State) (c : Channel),
    Waits l 0x20#8 p s → p.length = 5 + 8 * u8 p 3 → u8 p 0 = c.val → 1 ≤ u8 p 3 → u8 p 3 ≤ 64 →
    (bitAt p 4 0 || bitAt p 4 1 || bitAt p 4 2) = true → u16 p 1 + u8 p 3 ≤ 1066 → (l = 12 ∨ l.val = c.val) →
    ∃ (es : List NodeEntry) (clamped : Bool), es.length = u8 p 3 ∧
      (∀ i, i < u8 p 3 → es[i]? = some
        { u := s16 p (5 + 8 * i), v := s16 p (5 + 8 * i + 2), isVoid := bitAt p (5 + 8 * i + 6) 0
          baseWeight := if bitAt p 4 2 = true then min 4096 (u16 p (5 + 8 * i + 4)) else u16 p (5 + 8 * i + 4) }) ∧
      (clamped = true ↔ bitAt p 4 2 = true ∧ ∃ i, i < u8 p 3 ∧ 4096 < u16 p (5 + 8 * i + 4)) ∧
      exec (.stageNodes l) s = .next
        (if l ≠ 12 ∧ s.mode = .showing then answered l (refusal 0x20#8 .held) s
         else presented l 0x20#8
          (.nodes c (u16 p 1) { position := bitAt p 4 0, isVoid := bitAt p 4 1, baseWeight := bitAt p 4 2 } es) clamped s)

/-- A STAGE_SEAM within its bounds whose members include the sender presents its SEAM record; a DROP_SEAM from SL, or from a
member of the seam present in ACTIVE, presents a SEAM_DROP; from a tile link in SHOW mode each is refused HELD. Before that
STAGE_SEAM is refused BAD_FIELD for a seam id, members or a point count out of range, BAD_INDEX for a node past the grid, and
NOT_PERMITTED from a link that is no member; DROP_SEAM BAD_FIELD for its id, and from a tile link NOT_FOUND for a seam absent
from ACTIVE and NOT_PERMITTED for one the link is no member of (ch. 2, STAGING SEAM EDITS). -/
def Obligations.SeamEditsPresent : Prop :=
  (∀ (l : Link) (p : List Byte) (s : State), Waits l 0x21#8 p s → p.length = 3 + u8 p 1 + 4 * u8 p 2 * u8 p 1 →
    (let bad := 48 ≤ u8 p 0 ∨ u8 p 1 < 2 ∨ 4 < u8 p 1 ∨ (∃ j, j < u8 p 1 ∧ 12 ≤ u8 p (3 + j)) ∨
      (∃ j, j < u8 p 1 ∧ ∃ k, k < j ∧ u8 p (3 + k) = u8 p (3 + j)) ∨ u8 p 2 = 0 ∨ 96 < u8 p 2
     let past := ∃ i, i < u8 p 2 ∧ ∃ j, j < u8 p 1 ∧ 1066 ≤ u16 p (3 + u8 p 1 + 4 * (i * u8 p 1 + j))
     (bad → Refuses (.stageSeam l) l 0x21#8 .badField s) ∧
     (¬ bad → past → Refuses (.stageSeam l) l 0x21#8 .badIndex s) ∧
     (¬ bad → ¬ past → l ≠ 12 → (∀ j, j < u8 p 1 → u8 p (3 + j) ≠ l.val) →
      Refuses (.stageSeam l) l 0x21#8 .notPermitted s))) ∧
  (∀ (l : Link) (p : List Byte) (s : State), Waits l 0x22#8 p s → p.length = 1 →
    (48 ≤ u8 p 0 → Refuses (.dropSeam l) l 0x22#8 .badField s) ∧
    ∀ id : SeamId, u8 p 0 = id.val → l ≠ 12 →
      (s.tables.active.seams[id] = none → Refuses (.dropSeam l) l 0x22#8 .notFound s) ∧
      ∀ m, s.tables.active.seams[id] = some m → (∀ c ∈ m.members, l.val ≠ c.val) →
        Refuses (.dropSeam l) l 0x22#8 .notPermitted s) ∧
  (∀ (l : Link) (p : List Byte) (s : State) (id : SeamId) (ms : List Channel),
    Waits l 0x21#8 p s → p.length = 3 + u8 p 1 + 4 * u8 p 2 * u8 p 1 → u8 p 0 = id.val →
    2 ≤ u8 p 1 → u8 p 1 ≤ 4 → 1 ≤ u8 p 2 → u8 p 2 ≤ 96 →
    ms.length = u8 p 1 → (∀ j, j < u8 p 1 → (ms[j]?).map Fin.val = some (u8 p (3 + j))) → ms.Nodup →
    (∀ i, i < u8 p 2 → ∀ j, j < u8 p 1 → u16 p (3 + u8 p 1 + 4 * (i * u8 p 1 + j)) < 1066) →
    (l = 12 ∨ ∃ c ∈ ms, l.val = c.val) →
    ∃ m : Seam, m.members = ms ∧ m.points.length = u8 p 2 ∧
      (∀ i, i < u8 p 2 → ∃ q, m.points[i]? = some q ∧ q.length = u8 p 1 ∧
        ∀ j, j < u8 p 1 → q[j]? = some
          { node := u16 p (3 + u8 p 1 + 4 * (i * u8 p 1 + j))
            coverage := u16 p (3 + u8 p 1 + 4 * (i * u8 p 1 + j) + 2) }) ∧
      exec (.stageSeam l) s = .next
        (if l ≠ 12 ∧ s.mode = .showing then answered l (refusal 0x21#8 .held) s
         else presented l 0x21#8 (.seam id m) false s)) ∧
  ∀ (l : Link) (p : List Byte) (s : State) (id : SeamId),
    Waits l 0x22#8 p s → p.length = 1 → u8 p 0 = id.val →
    (l = 12 ∨ ∃ (c : Channel) (m : Seam), l.val = c.val ∧ s.tables.active.seams[id] = some m ∧ c ∈ m.members) →
    exec (.dropSeam l) s = .next
      (if l ≠ 12 ∧ s.mode = .showing then answered l (refusal 0x22#8 .held) s
       else presented l 0x22#8 (.seamDrop id) false s)

/-- A STAGE_CHANNEL of the sender's own channel, and a STAGE_FLOOR from SL, within their bounds present their records, each
selected value above its ceiling taken as the ceiling with CLAMPED; a STAGE_CHANNEL from a tile link in SHOW mode is refused
HELD. Before that STAGE_CHANNEL is refused BAD_FIELD for a channel, a mask or a selected raster out of range and NOT_PERMITTED
for another channel from a tile link, and STAGE_FLOOR BAD_FIELD for an empty mask or a selected mode that is neither 0 nor 1
(ch. 1, CHANNEL RECORDS and THE SKY RECORD; ch. 10, ROLES AND MODES). -/
def Obligations.StageChannelAndFloorPresent : Prop :=
  (∀ (l : Link) (p : List Byte) (s : State), Waits l 0x23#8 p s → p.length = 14 →
    (let bad := 12 ≤ u8 p 0 ∨ (bitAt p 1 0 || bitAt p 1 1 || bitAt p 1 2) = false ∨
      (bitAt p 1 0 = true ∧ (u16 p 2 < 256 ∨ 2560 < u16 p 2 ∨ u16 p 4 < 256 ∨ 1600 < u16 p 4))
     (bad → Refuses (.stageChannel l) l 0x23#8 .badField s) ∧
     (¬ bad → l ≠ 12 → l.val ≠ u8 p 0 → Refuses (.stageChannel l) l 0x23#8 .notPermitted s))) ∧
  (∀ (p : List Byte) (s : State), Waits 12 0x24#8 p s → p.length = 5 →
    ((bitAt p 0 0 || bitAt p 0 1 || bitAt p 0 2) = false ∨ (bitAt p 0 0 = true ∧ 1 < u8 p 1)) →
    Refuses (.stageFloor 12) 12 0x24#8 .badField s) ∧
  (∀ (l : Link) (p : List Byte) (s : State) (c : Channel),
    Waits l 0x23#8 p s → p.length = 14 → u8 p 0 = c.val →
    (bitAt p 1 0 || bitAt p 1 1 || bitAt p 1 2) = true →
    (bitAt p 1 0 = true → 256 ≤ u16 p 2 ∧ u16 p 2 ≤ 2560 ∧ 256 ≤ u16 p 4 ∧ u16 p 4 ≤ 1600) →
    (l = 12 ∨ l.val = c.val) →
    ∃ (v : ChannelRecord) (clamped : Bool),
      (bitAt p 1 0 = true → v.width = u16 p 2 ∧ v.height = u16 p 4) ∧
      (bitAt p 1 1 = true → v.beta = min 4095 (u16 p 6)) ∧
      (bitAt p 1 2 = true →
        v.gainR = min 4096 (u16 p 8) ∧ v.gainG = min 4096 (u16 p 10) ∧ v.gainB = min 4096 (u16 p 12)) ∧
      (clamped = true ↔ (bitAt p 1 1 = true ∧ 4095 < u16 p 6) ∨
        (bitAt p 1 2 = true ∧ (4096 < u16 p 8 ∨ 4096 < u16 p 10 ∨ 4096 < u16 p 12))) ∧
      exec (.stageChannel l) s = .next
        (if l ≠ 12 ∧ s.mode = .showing then answered l (refusal 0x23#8 .held) s
         else presented l 0x23#8
          (.channel c { raster := bitAt p 1 0, beta := bitAt p 1 1, gains := bitAt p 1 2 } v) clamped s)) ∧
  ∀ (p : List Byte) (s : State),
    Waits 12 0x24#8 p s → p.length = 5 → (bitAt p 0 0 || bitAt p 0 1 || bitAt p 0 2) = true →
    (bitAt p 0 0 = true → u8 p 1 ≤ 1) →
    ∃ (mode : FloorMode) (phiSet tau : Nat) (clamped : Bool),
      (bitAt p 0 0 = true → mode = if u8 p 1 = 0 then .fixed else .auto) ∧
      (bitAt p 0 1 = true → phiSet = min 16383 (u16 p 2)) ∧
      (bitAt p 0 2 = true → tau = min 64 (u8 p 4)) ∧
      (clamped = true ↔ (bitAt p 0 1 = true ∧ 16383 < u16 p 2) ∨ (bitAt p 0 2 = true ∧ 64 < u8 p 4)) ∧
      exec (.stageFloor 12) s = .next (presented 12 0x24#8
        (.floor { mode := bitAt p 0 0, phiSet := bitAt p 0 1, tau := bitAt p 0 2 } mode phiSet tau) clamped s)

/-- A STAGE_LUT within its table's bounds, of the input LUT from SL or of an output LUT of the sender's channel, presents
its LUT record, output values above 1023 taken as 1023; from a tile link in SHOW mode it is refused HELD. Before that it is
refused BAD_FIELD for a target or a count out of range, BAD_INDEX for a run past the table, and NOT_PERMITTED from a tile link
for the input LUT or another channel's table, in this order (ch. 1, LOOKUP TABLES; ch. 10, ROLES AND MODES). -/
def Obligations.StageLutPresents : Prop :=
  (∀ (l : Link) (p : List Byte) (s : State), Waits l 0x25#8 p s → p.length = 5 + 2 * u16 p 3 →
    (let bad := 37 ≤ u8 p 0 ∨ u16 p 3 = 0 ∨ 256 < u16 p 3
     let size := if u8 p 0 = 0 then 1024 else 1025
     (bad → Refuses (.stageLut l) l 0x25#8 .badField s) ∧
     (¬ bad → size < u16 p 1 + u16 p 3 → Refuses (.stageLut l) l 0x25#8 .badIndex s) ∧
     (¬ bad → u16 p 1 + u16 p 3 ≤ size → l ≠ 12 → (u8 p 0 = 0 ∨ (u8 p 0 - 1) / 3 ≠ l.val) →
      Refuses (.stageLut l) l 0x25#8 .notPermitted s))) ∧
  (∀ (p : List Byte) (s : State),
    Waits 12 0x25#8 p s → p.length = 5 + 2 * u16 p 3 → u8 p 0 = 0 → 1 ≤ u16 p 3 → u16 p 3 ≤ 256 →
    u16 p 1 + u16 p 3 ≤ 1024 →
    ∃ vs : List Nat, vs.length = u16 p 3 ∧ (∀ i, i < u16 p 3 → vs[i]? = some (u16 p (5 + 2 * i))) ∧
      exec (.stageLut 12) s = .next (presented 12 0x25#8 (.lut .input (u16 p 1) vs) false s)) ∧
  ∀ (l : Link) (p : List Byte) (s : State) (c : Channel) (k : Colour),
    Waits l 0x25#8 p s → p.length = 5 + 2 * u16 p 3 →
    u8 p 0 = 1 + 3 * c.val + (match k with
      | .r => 0
      | .g => 1
      | .b => 2) →
    1 ≤ u16 p 3 → u16 p 3 ≤ 256 → u16 p 1 + u16 p 3 ≤ 1025 → (l = 12 ∨ l.val = c.val) →
    ∃ (vs : List Nat) (clamped : Bool), vs.length = u16 p 3 ∧
      (∀ i, i < u16 p 3 → vs[i]? = some (min 1023 (u16 p (5 + 2 * i)))) ∧
      (clamped = true ↔ ∃ i, i < u16 p 3 ∧ 1023 < u16 p (5 + 2 * i)) ∧
      exec (.stageLut l) s = .next
        (if l ≠ 12 ∧ s.mode = .showing then answered l (refusal 0x25#8 .held) s
         else presented l 0x25#8 (.lut (.output c k) (u16 p 1) vs) clamped s)

/-- The turn goes to the presenting link that comes first from the rotation pointer, and the pointer moves to the link after
it. A record that fits is appended at the tail and answered ACCEPTED with its units and the occupancy after admission;
one that does not is answered STAGE_FULL with its units and the occupancy, and counted. With nothing presented, nothing
happens (ch. 5, ADMISSION). -/
def Obligations.TurnAdmitsOrRefuses : Prop :=
  (∀ (s : State) (l : Link) (q : Presented),
    s.resetHeld = false → s.ports[l].inProcess = some q →
    (∀ l' : Link, s.ports[l'].inProcess.isSome = true →
      (l.val + 13 - s.staging.pointer.val) % 13 ≤ (l'.val + 13 - s.staging.pointer.val) % 13) →
    exec .stagingTurn s = .next
      (let n := q.record.edit.units
       let next : Link := ⟨(l.val + 1) % 13, Nat.mod_lt _ (by decide)⟩
       let ended := fun r : Response =>
        put s.ports l { s.ports[l] with inProcess := none, outbound := s.ports[l].outbound ++ [.response r] }
       if n ≤ 8192 - s.staging.occupancy then
        { s with
          staging := { records := s.staging.records ++ [q.record], mark := s.staging.mark, pointer := next }
          ports := ended (acceptance q.kind q.clamped (.staged n (s.staging.occupancy + n))) }
       else
        { s with
          staging := { s.staging with pointer := next }
          counters := put s.counters 8 (s.counters[8] + 1)
          ports := ended { kind := q.kind, code := .stageFull, clamped := false, isPartial := false
                           body := .staged n s.staging.occupancy } })) ∧
  ∀ s : State, s.resetHeld = false → (∀ l : Link, s.ports[l].inProcess = none) → exec .stagingTurn s = .next s

/-- DISCARD from a tile link removes every unmarked record of that link, or is refused HELD in SHOW mode; from SL it removes
those of every link (ALL) or of the link named, and a link number of 13 or above is refused BAD_FIELD. The records that
remain keep their order, and the occupancy falls by the units removed (R83, R84). -/
def Obligations.DiscardRemovesByOrigin : Prop :=
  (∀ (l : Link) (s : State), l ≠ 12 → Waits l 0x26#8 [] s →
    exec (.discard l) s = .next
      (if s.mode = .showing then answered l (refusal 0x26#8 .held) s
       else discarded l (fun r => decide (r.origin = l)) s)) ∧
  (∀ (p : List Byte) (s : State), Waits 12 0x26#8 p s → p.length = 1 →
    (u8 p 0 = 255 → exec (.discard 12) s = .next (discarded 12 (fun _ => true) s)) ∧
    (u8 p 0 ≤ 12 → exec (.discard 12) s = .next (discarded 12 (fun r => decide (r.origin.val = u8 p 0)) s)) ∧
    (13 ≤ u8 p 0 → u8 p 0 ≠ 255 → exec (.discard 12) s = .next (answered 12 (refusal 0x26#8 .badField) s))) ∧
  ∀ (l : Link) (hit : EditRecord → Bool) (s : State),
    (discarded l hit s).staging.occupancy + unitsOf ((s.staging.records.drop (markCount s)).filter hit) =
      s.staging.occupancy

/-! ### Commits (chapters 2, 3 and 6) -/

/-- COMMIT in IDLE marks every record in the queue, copies ACTIVE into SHADOW and begins APPLYING; otherwise it is refused
BUSY with the state and the committing link; from a tile link in SHOW mode it is refused HELD (ch. 6, TAKING A COMMIT). The
empty lead list and the zero floor fields of the new current commit are the model's choice (notes/assumptions/21.md). -/
def Obligations.CommitBegins : Prop :=
  ∀ (l : Link) (s : State), Waits l 0x30#8 [] s →
    exec (.commit l) s = .next
      (let n := s.staging.records.length
       let u := s.staging.occupancy
       if l ≠ 12 ∧ s.mode = .showing then answered l (refusal 0x30#8 .held) s
       else if s.engine.state ≠ .idle then
        answered l { kind := 0x30#8, code := .busy, clamped := false, isPartial := false
                     body := .engineBusy s.engine.state (s.engine.current.map CurrentCommit.link) } s
       else answered l (acceptance 0x30#8 false (.marked n u))
        { s with
          staging := { s.staging with mark := some { count := n, units := u } }
          engine := { state := .applying, last := s.engine.last
                      current := some { link := l, count := n, units := u, leads := [], phi := 0, floorClamped := false
                                        shortfall := 0 } }
          tables := if s.tables.activeIsB then { s.tables with bankA := s.tables.bankB }
                    else { s.tables with bankB := s.tables.bankA } })

/-- ABORT_COMMIT in IDLE is refused NOTHING_TO_ABORT, and NOT_PERMITTED from a tile link that did not start the commit.
Otherwise it is answered ACCEPTED with the state found, the commit is recorded ABORTED and counted, the mark is cleared with
the records kept, and the ABORTED notice goes to the committing link and to SL; the order of the notice and the response is
the command's operand (ch. 6, ABORTING A COMMIT; notes/assumptions/14.md). -/
def Obligations.AbortCommitAbandons : Prop :=
  (∀ (l : Link) (o : Handing) (s : State), Waits l 0x31#8 [] s → s.engine.state = .idle →
    exec (.abortCommit l o) s = .next (answered l (refusal 0x31#8 .nothingToAbort) s)) ∧
  ∀ (l : Link) (o : Handing) (s : State) (k : CurrentCommit),
    Waits l 0x31#8 [] s → s.engine.state ≠ .idle → s.engine.current = some k →
    exec (.abortCommit l o) s = .next
      (if l ≠ 12 ∧ k.link ≠ l then answered l (refusal 0x31#8 .notPermitted) s
       else
        let outcome : OutcomePart :=
          { result := .aborted, error := .none, item := none, link := some k.link, count := k.count, swapFrame := none }
        let ended : State :=
          { s with
            engine := { state := .idle, current := none, last := { s.engine.last with outcome := outcome } }
            staging := { s.staging with mark := none } }
        let notices := toCommitter k.link (.aborted k.link k.count s.engine.state (.abortCommit l))
        let r := acceptance 0x31#8 false (.abortedIn s.engine.state)
        match o with
        | .responseFirst => handAll notices (answered l r (counted 4 ended))
        | .noticeFirst => answered l r (handAll notices (counted 4 ended)))

/-- APPLYING ends when every marked record has been applied to SHADOW, one after another in queue order; CHECKING begins and
nothing else changes. A record writes what it selects and nothing else of the bank: selected fields of the nodes named, the
whole slot of a seam, selected fields of a channel record or of the sky record, a run of LUT entries (ch. 6, THE PHASES;
ch. 1; ch. 2, APPLYING SEAM EDITS). -/
def Obligations.ApplyingWritesTheMarkedRecords : Prop :=
  (∀ (s : State) (k : CurrentCommit), PhaseAt s .applying k →
    exec .applyingCompletes s = .next
      { s with
        engine := { s.engine with state := .checking }
        tables := s.tables.setShadow
          ((s.staging.records.take (markCount s)).foldl (fun b r => r.edit.apply b) s.tables.shadow) }) ∧
  (∀ (b : Bank) (c : Channel) (start : Nat) (m : NodeMask) (es : List NodeEntry),
    ∃ g, (Edit.nodes c start m es).apply b = { b with grids := g } ∧
      ∀ (c' : Channel) (i : Nat), ((Edit.nodes c start m es).apply b).node c' i =
        match (if c' = c ∧ start ≤ i then es[i - start]? else none) with
        | none => b.node c' i
        | some e =>
          { b.node c' i with
            u := if m.position = true then e.u else (b.node c' i).u
            v := if m.position = true then e.v else (b.node c' i).v
            isVoid := if m.isVoid = true then e.isVoid else (b.node c' i).isVoid
            baseWeight := if m.baseWeight = true then e.baseWeight else (b.node c' i).baseWeight }) ∧
  (∀ (b : Bank) (id : SeamId) (m : Seam), (Edit.seam id m).apply b = { b with seams := put b.seams id (some m) } ∧
    (Edit.seamDrop id).apply b = { b with seams := put b.seams id none }) ∧
  (∀ (b : Bank) (c : Channel) (m : ChannelMask) (v : ChannelRecord),
    let after : ChannelRecord :=
      { width := if m.raster = true then v.width else (b.records[c]).width
        height := if m.raster = true then v.height else (b.records[c]).height
        beta := if m.beta = true then v.beta else (b.records[c]).beta
        gainR := if m.gains = true then v.gainR else (b.records[c]).gainR
        gainG := if m.gains = true then v.gainG else (b.records[c]).gainG
        gainB := if m.gains = true then v.gainB else (b.records[c]).gainB }
    (Edit.channel c m v).apply b = { b with records := put b.records c after }) ∧
  (∀ (b : Bank) (m : FloorMask) (mode : FloorMode) (phiSet tau : Nat),
    (Edit.floor m mode phiSet tau).apply b = { b with sky :=
      { b.sky with
        floorMode := if m.mode = true then mode else b.sky.floorMode
        phiSet := if m.phiSet = true then phiSet else b.sky.phiSet
        tau := if m.tau = true then tau else b.sky.tau } }) ∧
  (∀ (b : Bank) (start : Nat) (vs : List Nat),
    ∃ t, (Edit.lut .input start vs).apply b = { b with inputLut := t } ∧
      ∀ e, ((Edit.lut .input start vs).apply b).inputEntry e =
        if start ≤ e then vs.getD (e - start) (b.inputEntry e) else b.inputEntry e) ∧
  ∀ (b : Bank) (c : Channel) (k : Colour) (start : Nat) (vs : List Nat),
    ∃ t, (Edit.lut (.output c k) start vs).apply b = { b with outputLuts := t } ∧
      ∀ (c' : Channel) (k' : Colour) (e : Nat), ((Edit.lut (.output c k) start vs).apply b).outputEntry c' k' e =
        if c' = c ∧ k' = k ∧ start ≤ e then vs.getD (e - start) (b.outputEntry c' k' e) else b.outputEntry c' k' e

/-- CHECKING succeeds when the pool is not exceeded and every member entry of the walk finds a non-VOID node not claimed
before it; every node then carries the reference of its point, and no other (R26). It fails with POINT_POOL_FULL, naming the
point that brings the count to 2049, and otherwise at the first member entry that finds a VOID node (SEAM_VOID_NODE) or a
node already claimed (NODE_CONFLICT), naming that channel and node (ch. 2, CHECKING THE REGISTRY). -/
def Obligations.CheckingWalksTheSeams : Prop :=
  (∀ (s : State) (k : CurrentCommit), PhaseAt s .checking k → s.tables.shadow.poolOccupancy ≤ 2048 →
    (s.tables.shadow.claims.map fun q => (q.channel, q.node)).Nodup →
    (∀ q ∈ s.tables.shadow.claims, (s.tables.shadow.node q.channel q.node).isVoid = false) →
    ∃ b, exec .checkingCompletes s = .next
        { s with engine := { s.engine with state := .normalizing }, tables := s.tables.setShadow b } ∧
      (∃ g, b = { s.tables.shadow with grids := g }) ∧ Walked b ∧
      ∀ (c : Channel) (i : Nat),
        b.node c i = { s.tables.shadow.node c i with seamRef := (b.node c i).seamRef }) ∧
  (∀ (s : State) (k : CurrentCommit), PhaseAt s .checking k → 2048 < s.tables.shadow.poolOccupancy →
    ∃ p b, s.tables.shadow.points[2048]? = some p ∧
      exec .checkingCompletes s = .next (failed k .pointPoolFull (.point p.seam p.point) b s)) ∧
  ∀ (s : State) (k : CurrentCommit) (before after : List Claim) (q : Claim),
    PhaseAt s .checking k → s.tables.shadow.poolOccupancy ≤ 2048 → s.tables.shadow.claims = before ++ q :: after →
    (before.map fun r => (r.channel, r.node)).Nodup →
    (∀ r ∈ before, (s.tables.shadow.node r.channel r.node).isVoid = false) →
    ((s.tables.shadow.node q.channel q.node).isVoid = true →
      ∃ b, exec .checkingCompletes s = .next (failed k .seamVoidNode (.node q.channel q.node) b s)) ∧
    ((s.tables.shadow.node q.channel q.node).isVoid = false →
      (∃ r ∈ before, r.channel = q.channel ∧ r.node = q.node) →
      ∃ b, exec .checkingCompletes s = .next (failed k .nodeConflict (.node q.channel q.node) b s))

/-- The shares of a point: each member's coverage times 4096 over the sum of coverages, rounded down; each between 0 and
4096; together 4096 less at most one for each member but one (R31). -/
def Obligations.SharesRoundDown : Prop :=
  ∀ rs : List Nat, (∀ r ∈ rs, r ≤ 65535) → 0 < rs.sum →
    flushedShares 0 rs = rs.map (fun r => r * 4096 / rs.sum) ∧ (∀ r ∈ rs, r * 4096 ≤ 268431360) ∧
      (∀ q ∈ flushedShares 0 rs, q ≤ 4096) ∧
      (flushedShares 0 rs).sum ≤ 4096 ∧ 4096 ≤ (flushedShares 0 rs).sum + (rs.length - 1)

/-- The final shares of a point of at most four members: shares below τ become 0, the lead member, the earliest of the
largest coverage, takes what the others leave, at least 1024; every other takes at most 2048; together exactly 4096 (ch. 2,
NORMALIZATION). -/
def Obligations.FinalSharesSumToFullWeight : Prop :=
  ∀ (tau : Nat) (rs : List Nat), 2 ≤ rs.length → rs.length ≤ 4 → 0 < rs.sum → tau ≤ 64 →
    (finalShares tau rs).length = rs.length ∧ (finalShares tau rs).sum = 4096 ∧
    (∃ lead, rs[leadIndex rs]? = some lead ∧ (∀ r ∈ rs, r ≤ lead) ∧ ∀ j, j < leadIndex rs → ∀ r, rs[j]? = some r → r < lead) ∧
    ∀ j q, (finalShares tau rs)[j]? = some q →
      if j = leadIndex rs then 1024 ≤ q ∧ q ≤ 4096
      else q ≤ 2048 ∧ ∀ r, rs[j]? = some r → q = if r * 4096 / rs.sum < tau then 0 else r * 4096 / rs.sum

/-- NORMALIZING fails with ZERO_COVERAGE at the first point whose coverages are all 0. Otherwise it records the lead member
of every point and writes every derived weight: the final shares at the member nodes, 0 at VOID nodes, the base weight at
every other node; FLOORING begins (ch. 2, NORMALIZATION). That the STALE SHADOW of a ZERO_COVERAGE failure is as it was is the
model's choice (notes/assumptions/9.md). -/
def Obligations.NormalizingWritesWeights : Prop :=
  (∀ (s : State) (k : CurrentCommit) (before after : List PointAt) (p : PointAt),
    PhaseAt s .normalizing k → s.tables.shadow.points = before ++ p :: after →
    (∀ q ∈ before, q.coverages.sum ≠ 0) → p.coverages.sum = 0 →
    exec .normalizingCompletes s = .next (failed k .zeroCoverage (.point p.seam p.point) s.tables.shadow s)) ∧
  ∀ (s : State) (k : CurrentCommit), PhaseAt s .normalizing k → (∀ q ∈ s.tables.shadow.points, q.coverages.sum ≠ 0) →
    Walked s.tables.shadow →
    ∃ b, exec .normalizingCompletes s = .next
        (let leads : List Lead := s.tables.shadow.points.map fun p =>
          { seam := p.seam, point := p.point, position := leadIndex p.coverages }
         { s with
          engine := { s.engine with state := .flooring, current := some { k with leads := leads } }
          tables := s.tables.setShadow b }) ∧
      (∃ g, b = { s.tables.shadow with grids := g }) ∧
      (∀ (c : Channel) (i : Nat), b.node c i = { s.tables.shadow.node c i with weight := (b.node c i).weight }) ∧
      (∀ p ∈ s.tables.shadow.points, ∀ (j : Nat) (m : Channel × MemberEntry), p.members[j]? = some m →
        (finalShares s.tables.shadow.sky.tau p.coverages)[j]? = some (b.node m.1 m.2.node).weight) ∧
      ∀ (c : Channel) (i : Nat), (b.node c i).seamRef = none →
        (b.node c i).weight = if (b.node c i).isVoid = true then 0 else (b.node c i).baseWeight

/-- FLOORING writes Φ and H = 65535 − Φ: Φ_set in FIXED mode; in AUTO mode the largest node black of all non-VOID nodes, or
0 where every node is VOID. The black of a node is the β of its channel, or the sum of β over the members of its seam.
FLOOR_CLAMPED is clear and LIFTING begins (ch. 3, NODE BLACK and THE FLOOR VALUE). The tables' canonical form is the model's
(notes/assumptions/11.md). -/
def Obligations.FlooringSetsTheFloor : Prop :=
  ∀ (s : State) (k : CurrentCommit), PhaseAt s .flooring k → s.tables.shadow.wf = true →
    ∃ phi, exec .flooringCompletes s = .next
        { s with
          engine := { s.engine with state := .lifting, current := some { k with phi := phi, floorClamped := false } }
          tables := s.tables.setShadow
            { s.tables.shadow with sky := { s.tables.shadow.sky with phi := phi, headroom := 65535 - phi } } } ∧
      (s.tables.shadow.sky.floorMode = .fixed → phi = s.tables.shadow.sky.phiSet) ∧
      (s.tables.shadow.sky.floorMode = .auto →
        (∀ (c : Channel) (i : Nat), (s.tables.shadow.node c i).isVoid = false →
          blackAt s.tables.shadow c (s.tables.shadow.node c i) ≤ phi) ∧
        (phi = 0 ∨ ∃ (c : Channel) (i : Nat), (s.tables.shadow.node c i).isVoid = false ∧
          phi = blackAt s.tables.shadow c (s.tables.shadow.node c i)))

/-- LIFTING writes every derived lift, records Φ, FLOOR_CLAMPED and the shortfall count, arms the commit and notifies. An
interior node takes what its channel's β leaves of Φ, a VOID node 0; of the members of a seam point each but the lead takes
the shortfall divided by the members, and the lead the rest; together they take the shortfall exactly. The shortfall count is
the number of interior nodes whose β lies above Φ and of seam points whose sum of β over the members does (ch. 3, SHORTFALL
and LIFT AT A SEAM POINT; ch. 6, THE PHASES). The tables' canonical form is the model's (notes/assumptions/11.md). -/
def Obligations.LiftingArmsTheCommit : Prop :=
  ∀ (s : State) (k : CurrentCommit), PhaseAt s .lifting k → Walked s.tables.shadow → k.leads = s.tables.shadow.leads →
    (∀ p ∈ s.tables.shadow.points, p.coverages.sum ≠ 0) →
    ∃ (b : Bank) (short : Nat), exec .liftingCompletes s = .next
        (let floor : FloorPart := { phi := k.phi, floorClamped := k.floorClamped, shortfall := short }
         handAll (toCommitter k.link (.armed k.link k.count floor))
          { s with
            engine := { state := .armed, current := some { k with shortfall := short }
                        last := { s.engine.last with floor := floor } }
            tables := s.tables.setShadow b }) ∧
      (s.tables.shadow.wf = true → ∃ interior : List (Channel × Nat), interior.Nodup ∧
        (∀ (c : Channel) (i : Nat), (c, i) ∈ interior ↔ (s.tables.shadow.node c i).isVoid = false ∧
          (s.tables.shadow.node c i).seamRef = none ∧ s.tables.shadow.sky.phi < (s.tables.shadow.records[c]).beta) ∧
        short = interior.length + (s.tables.shadow.points.filter fun p =>
          decide (s.tables.shadow.sky.phi < sumOfBeta s.tables.shadow p.seam)).length) ∧
      (∃ g, b = { s.tables.shadow with grids := g }) ∧
      (∀ (c : Channel) (i : Nat), b.node c i = { s.tables.shadow.node c i with lift := (b.node c i).lift }) ∧
      (∀ (c : Channel) (i : Nat), (b.node c i).seamRef = none →
        (b.node c i).lift = if (b.node c i).isVoid = true then 0 else b.sky.phi - (b.records[c]).beta) ∧
      (∀ p ∈ b.points, ∀ (j : Nat) (m : Channel × MemberEntry), p.members[j]? = some m →
        (b.node m.1 m.2.node).lift =
          (let d := b.sky.phi - sumOfBeta b p.seam
           let n := p.members.length
           if j = leadIndex p.coverages then d - (n - 1) * (d / n) else d / n)) ∧
      LiftsBalanced b

/-! ### Receivers (chapter 7) -/

/-- A frame header frees a frame in reception and starts filling the lowest-numbered FREE bank under its tag, with the
malformed flag clear, the line and loss counts 0 and the state RECEIVING. In RECEIVING it counts a truncation; in LOST it
emits INPUT_RESTORED to the tile link and SL (ch. 7, THE FRAME HEADER). -/
def Obligations.HeaderStartsFilling : Prop :=
  ∀ (c : Channel) (tag : Word32) (s : State), s.resetHeld = false → ReceiverOk s.receivers[c] →
    ∃ (i : Fin 3) (r : Receiver), exec (.frameHeader c tag) s = .next
        (let s' := { s with receivers := put s.receivers c r }
         match s.receivers[c].state with
         | .receiving => counted (Counter.ofChannel c 1) s'
         | .idle => s'
         | .lost => handAll [(tileLink c, .inputRestored c tag), (12, .inputRestored c tag)] s') ∧
      r.state = .receiving ∧ r.lineCount = 0 ∧ r.lossCount = 0 ∧
      ((s.receivers[c].banks[i]).state = .free ∨ (s.receivers[c].banks[i]).state = .filling) ∧
      (∀ j : Fin 3, j.val < i.val → (s.receivers[c].banks[j]).state = .shown ∨ (s.receivers[c].banks[j]).state = .ready) ∧
      r.banks[i] = { s.receivers[c].banks[i] with state := .filling, tag := tag, malformed := false } ∧
      ∀ j : Fin 3, j ≠ i → r.banks[j] =
        { s.receivers[c].banks[j] with
          state := if (s.receivers[c].banks[j]).state = .filling then .free else (s.receivers[c].banks[j]).state }

/-- A line in RECEIVING raises the line count, which stops at 65535; its pixels, as many as the raster is wide, go to its row
of the FILLING bank while the count lies within the raster height, and positions it does not reach keep what they held; a
line of another length sets the malformed flag. In any other state it is ignored (ch. 7, LINES). That the codes of the bank
are in canonical form is the model's (notes/assumptions/11.md). -/
def Obligations.LineFillsItsRow : Prop :=
  (∀ (c : Channel) (ps : List Pixel) (s : State), s.resetHeld = false → s.receivers[c].state ≠ .receiving →
    exec (.line c ps) s = .next s) ∧
  ∀ (c : Channel) (ps : List Pixel) (s : State) (i : Fin 3), s.resetHeld = false → ReceiverOk s.receivers[c] →
    s.receivers[c].state = .receiving → (s.receivers[c].banks[i]).state = .filling →
    ∃ f : FrameBank, exec (.line c ps) s = .next
        (let r : Receiver := { s.receivers[c] with
          lineCount := min 65535 (s.receivers[c].lineCount + 1), banks := put s.receivers[c].banks i f }
         { s with receivers := put s.receivers c r }) ∧
      f.state = .filling ∧ f.tag = (s.receivers[c].banks[i]).tag ∧
      f.malformed =
        ((s.receivers[c].banks[i]).malformed || decide (ps.length ≠ (s.tables.active.records[c]).width)) ∧
      f.wf = true ∧
      ∀ x y, f.pixel x y =
        if y + 1 = min 65535 (s.receivers[c].lineCount + 1) ∧ y < (s.tables.active.records[c]).height ∧
            x < (s.tables.active.records[c]).width ∧ x < ps.length then ps.getD x Pixel.black
        else (s.receivers[c].banks[i]).pixel x y

/-- A frame end in RECEIVING ends the frame and the state becomes IDLE. A malformed frame, or one of another line count than
the raster height, is freed and counted malformed. Otherwise the bank becomes READY, an older READY bank is freed and
counted replaced, the frame is counted, and a stalled channel rejoins with its late count 0 and a REJOINED notice to its
tile link and SL. In any other state it is ignored (ch. 7, THE FRAME END; ch. 8, RELEASES). -/
def Obligations.FrameEndJudges : Prop :=
  (∀ (c : Channel) (s : State), s.resetHeld = false → s.receivers[c].state ≠ .receiving →
    exec (.frameEnd c) s = .next s) ∧
  ∀ (c : Channel) (s : State) (i : Fin 3), s.resetHeld = false → ReceiverOk s.receivers[c] →
    s.receivers[c].state = .receiving → (s.receivers[c].banks[i]).state = .filling →
    ∃ t, exec (.frameEnd c) s = .next t ∧
      (let bad := (s.receivers[c].banks[i]).malformed = true ∨
        s.receivers[c].lineCount ≠ (s.tables.active.records[c]).height
       ∃ r : Receiver, t.receivers = put s.receivers c r ∧ r.state = .idle ∧ r.lineCount = s.receivers[c].lineCount ∧
        r.lossCount = s.receivers[c].lossCount ∧
        (bad → t = counted (Counter.ofChannel c 2) { s with receivers := t.receivers } ∧
          r.banks = put s.receivers[c].banks i { s.receivers[c].banks[i] with state := .free }) ∧
        (¬ bad →
          r.banks[i] = { s.receivers[c].banks[i] with state := .ready } ∧
          (∀ j : Fin 3, j ≠ i → r.banks[j] = { s.receivers[c].banks[j] with
            state := if (s.receivers[c].banks[j]).state = .ready then .free else (s.receivers[c].banks[j]).state }) ∧
          (let done := counted (Counter.ofChannel c 0) { s with receivers := t.receivers }
           let s' := if Ready s c then counted (Counter.ofChannel c 3) done else done
           t = if (s.barrier.channels[c]).stalled = true then
              (let back : BarrierChannel := { s.barrier.channels[c] with stalled := false, lateCount := 0 }
               handAll
                [(tileLink c, .rejoined c (s.receivers[c].banks[i]).tag), (12, .rejoined c (s.receivers[c].banks[i]).tag)]
                { s' with barrier := { s'.barrier with channels := put s.barrier.channels c back } })
            else s')))

/-! ### The output frame start (chapters 4, 8 and 9) -/

/-- At every output frame start, from whatever source: the fade steps by the distance left over the remaining count, rounded
toward zero; STARTING outputs become ACTIVE and STOPPING ones DISABLED; the cadence counter steps; every pixel engine fixes
its frame context from what this frame start leaves and begins at pixel (0, 0); the frame start is counted, and no frame
completed, no malformed frame, no commit failed or aborted, no lock loss, no staging refusal and no link error is. The rest of
the timing, the barrier's settings, the mode and the ports apart from their outbound queues stay; the tables change at most in
which bank is ACTIVE. The frame start falls at the clock's time after it: at a REF edge the edge's, which becomes the last
REF edge; in LOCKED without an edge at period + period div 256 after the last edge, as a substitute; otherwise one period
after the previous frame start. A command that names a frame start where none is taken changes nothing (ch. 4, FRAMES; ch. 8,
CADENCE; ch. 9). The clock and the substituted flag are the model's own (notes/assumptions/7.md, 8.md), and so is that a
command named by what happens in a frame start is that whole frame start (notes/assumptions/6.md). -/
def Obligations.FrameStartMovesEveryBlock : Prop :=
  (∀ (i : Instr) (race : FrameRace) (c : Channel) (s : State),
    i ∈ [.outputFrameStart race, .substituteFrameStart race, .eligibleFrameStart race, .forcedRelease race, .stall c race,
      .inputLost c race] → ¬ FrameStartTaken s i race → exec i s = .next s) ∧
  ∀ (i : Instr) (race : FrameRace) (s : State), FrameStartTaken s i race →
    ∃ t, exec i s = .next t ∧
      t.timing.lastFrameStart = t.timing.clock ∧
      (∀ time, i = .refEdge time race → t.timing.clock = max s.timing.clock time ∧
        t.timing.lastEdge = some t.timing.clock ∧ t.timing.substituted = false) ∧
      ((∀ time, i ≠ .refEdge time race) → t.timing.lastEdge = s.timing.lastEdge ∧
        (s.timing.state ≠ .locked → t.timing.substituted = s.timing.substituted ∧
          t.timing.clock = max s.timing.clock (s.timing.lastFrameStart + s.timing.period)) ∧
        ∀ e, s.timing.state = .locked → s.timing.lastEdge = some e → t.timing.substituted = true ∧
          t.timing.clock = max s.timing.clock (e + s.timing.period + s.timing.period / 256)) ∧
      t.fade = (if 0 < s.fade.remaining then
          { level := ((s.fade.level : Int) + ((s.fade.target : Int) - s.fade.level).tdiv s.fade.remaining).toNat
            target := s.fade.target, remaining := s.fade.remaining - 1 }
        else { level := s.fade.target, target := s.fade.target, remaining := 0 }) ∧
      (∀ c : Channel, t.timing.outputs[c] = match s.timing.outputs[c] with
        | .disabled => .disabled
        | .starting => .active
        | .active => .active
        | .stopping => .disabled) ∧
      t.barrier.cadence = (if s.barrier.cadence = 0 then s.barrier.reload - 1 else s.barrier.cadence - 1) ∧
      (∀ c : Channel, ∃ shown : Fin 3,
        ((∃ j : Fin 3, (t.receivers[c].banks[j]).state = .shown) → (t.receivers[c].banks[shown]).state = .shown) ∧
        t.engines[c] =
          { context := some { bankIsB := t.tables.activeIsB, shown := shown, fade := t.fade.level
                              dark := (t.barrier.channels[c]).dark, width := s.timing.width, height := s.timing.height
                              contentOff := false }
            x := 0, y := 0, out := s.engines[c].out }) ∧
      t.counters[6] = s.counters[6] + 1 ∧
      (∀ n : CounterIx, n = 3 ∨ n = 4 ∨ n = 5 ∨ n = 8 ∨ (∃ c : Channel, n = Counter.ofChannel c 0 ∨ n = Counter.ofChannel c 2) ∨
        (∃ l : Link, n = Counter.ofLink l 0 ∨ n = Counter.ofLink l 1 ∨ n = Counter.ofLink l 2) →
        t.counters[n] = s.counters[n]) ∧
      t.tables.bankA = s.tables.bankA ∧ t.tables.bankB = s.tables.bankB ∧
      t.barrier.reload = s.barrier.reload ∧ t.barrier.timeout = s.barrier.timeout ∧
      t.barrier.stallLimit = s.barrier.stallLimit ∧ t.barrier.lossLimit = s.barrier.lossLimit ∧
      t.timing.source = s.timing.source ∧ t.timing.state = s.timing.state ∧ t.timing.rate = s.timing.rate ∧
      t.timing.period = s.timing.period ∧ t.timing.intervals = s.timing.intervals ∧
      t.timing.width = s.timing.width ∧ t.timing.height = s.timing.height ∧
      t.resetHeld = false ∧ t.mode = s.mode ∧ t.pending = s.pending ∧ ∀ l : Link, PortHeld s.ports[l] t.ports[l]

/-- The barrier's decision at an output frame start. Not eligible: nothing of it changes. Eligible with P empty: ω becomes
0 and no release. A release: the sky frame number and the releases counter go up by one and ω becomes 0; it is counted as
forced exactly when some channel of P was unready. Otherwise a hold: ω goes up by one, up to 65535. Tables, queue and engine
stay unless an armed commit is swapped in (ch. 8, THE DECISION AT AN ELIGIBLE FRAME START and RELEASES). -/
def Obligations.BarrierDecides : Prop :=
  ∀ (i : Instr) (race : FrameRace) (s : State), FrameStartTaken s i race →
    ∃ t, exec i s = .next t ∧
      (s.barrier.cadence ≠ 0 → t.barrier.waitCount = s.barrier.waitCount ∧ t.barrier.skyFrame = s.barrier.skyFrame ∧
        t.counters[0] = s.counters[0] ∧ t.counters[1] = s.counters[1]) ∧
      (s.barrier.cadence = 0 → (∀ c, ¬ InP s c) → t.barrier.waitCount = 0 ∧ t.barrier.skyFrame = s.barrier.skyFrame ∧
        t.counters[0] = s.counters[0] ∧ t.counters[1] = s.counters[1]) ∧
      (ReleaseDue s → t.barrier.waitCount = 0 ∧ t.barrier.skyFrame = s.barrier.skyFrame + 1 ∧
        t.counters[0] = s.counters[0] + 1 ∧
        ((∀ c, InP s c → Ready s c) → t.counters[1] = s.counters[1]) ∧
        ((∃ c, InP s c ∧ ¬ Ready s c) → t.counters[1] = s.counters[1] + 1)) ∧
      (s.barrier.cadence = 0 → (∃ c, InP s c) → ¬ ReleaseDue s →
        t.barrier.waitCount = min 65535 (s.barrier.waitCount + 1) ∧ t.barrier.skyFrame = s.barrier.skyFrame ∧
        t.counters[0] = s.counters[0] ∧ t.counters[1] = s.counters[1]) ∧
      ((∀ k, ¬ SwapDue s k) →
        t.tables = s.tables ∧ t.staging = s.staging ∧ t.engine = s.engine ∧ t.counters[2] = s.counters[2])

/-- An armed commit is swapped in at a release and at an eligible frame start with P empty: the banks change places, the
marked records leave and the others move up, the mark goes, the engine returns to IDLE with the outcome DONE at the sky frame
number of this frame start, the floor part kept, and the swap is counted. The SWAPPED notice, with the committing link, the
count, that number and the floor fields, is handed to the committing link and to SL, and at no other frame start (ch. 6, THE
SWAP and COMMIT NOTICES). -/
def Obligations.SwapTakenWhole : Prop :=
  (∀ (i : Instr) (race : FrameRace) (s : State), FrameStartTaken s i race →
    ∃ t, exec i s = .next t ∧ ∀ (l from_ : Link) (count : Nat) (frame : Word32) (floor : FloorPart),
      .swapped from_ count frame floor ∈ handedTo race s l ↔
        ∃ k, SwapDue s k ∧ (l = k.link ∨ l = 12) ∧ from_ = k.link ∧ count = k.count ∧ frame = t.barrier.skyFrame ∧
          floor = { phi := k.phi, floorClamped := k.floorClamped, shortfall := k.shortfall }) ∧
  ∀ (i : Instr) (race : FrameRace) (s : State) (k : CurrentCommit), FrameStartTaken s i race → SwapDue s k →
    ∃ t, exec i s = .next t ∧
      t.tables = { s.tables with activeIsB := !s.tables.activeIsB } ∧
      t.staging = { records := s.staging.records.drop (markCount s), mark := none, pointer := s.staging.pointer } ∧
      t.engine = { state := .idle, current := none
                   last := { outcome := { result := .done, error := .none, item := none, link := some k.link
                                          count := k.count, swapFrame := some t.barrier.skyFrame }
                             floor := s.engine.last.floor } } ∧
      t.counters[2] = s.counters[2] + 1

/-- What the barrier holds for a channel after an output frame start. A stalled channel and a channel of P at a frame start
without a release: as it was. A ready channel of P at a release: late count 0, dark flag clear. An unready one at a forced
release: late count up by one, to at most 15, and counted; at the stall limit it stalls, is counted, goes dark where its
policy is DARK, and the STALLED notice is handed to its tile link and SL. A channel that is not enrolled: as it was, but that a
promotion of its READY bank clears the dark flag (ch. 8, RELEASES and CHANNELS NOT ENROLLED). That the late count stops at 15
whatever the stall limit is, and that a count at or above the limit stalls, is the model's reading
(notes/assumptions/20.md). -/
def Obligations.ChannelsLateAndStalled : Prop :=
  ∀ (i : Instr) (race : FrameRace) (s : State) (c : Channel), FrameStartTaken s i race →
    ∃ t, exec i s = .next t ∧
      ((s.barrier.channels[c]).enrolled = true → (s.barrier.channels[c]).stalled = true →
        t.barrier.channels[c] = s.barrier.channels[c]) ∧
      (InP s c → ¬ ReleaseDue s → t.barrier.channels[c] = s.barrier.channels[c]) ∧
      (InP s c → Ready s c → ReleaseDue s →
        t.barrier.channels[c] = { s.barrier.channels[c] with lateCount := 0, dark := false }) ∧
      (InP s c → ¬ Ready s c → ReleaseDue s →
        let n := min 15 ((s.barrier.channels[c]).lateCount + 1)
        let stall := decide (s.barrier.stallLimit ≠ 0 ∧ s.barrier.stallLimit ≤ n)
        t.counters[Counter.ofChannel c 4] = s.counters[Counter.ofChannel c 4] + 1 ∧
        t.counters[Counter.ofChannel c 5] = (if stall then s.counters[Counter.ofChannel c 5] + 1
          else s.counters[Counter.ofChannel c 5]) ∧
        t.barrier.channels[c] =
          { s.barrier.channels[c] with
            lateCount := n
            stalled := stall
            dark := (s.barrier.channels[c]).dark || (stall && decide ((s.barrier.channels[c]).policy = .dark)) }) ∧
      (¬ (InP s c ∧ ¬ Ready s c ∧ ReleaseDue s) →
        t.counters[Counter.ofChannel c 4] = s.counters[Counter.ofChannel c 4] ∧
        t.counters[Counter.ofChannel c 5] = s.counters[Counter.ofChannel c 5]) ∧
      ((s.barrier.channels[c]).enrolled = false →
        (¬ Ready s c → t.barrier.channels[c] = s.barrier.channels[c]) ∧
        (ReceiverOk s.receivers[c] →
          ((∃ tag, HandsBack race s c tag) → t.barrier.channels[c] = { s.barrier.channels[c] with dark := false }) ∧
          ((∀ tag, ¬ HandsBack race s c tag) → t.barrier.channels[c] = s.barrier.channels[c]))) ∧
      ∀ (l : Link) (frame : Word32) (policy : StallPolicy), .stalled c frame policy ∈ handedTo race s l ↔
        (l = tileLink c ∨ l = 12) ∧ InP s c ∧ ¬ Ready s c ∧ ReleaseDue s ∧ s.barrier.stallLimit ≠ 0 ∧
          s.barrier.stallLimit ≤ min 15 ((s.barrier.channels[c]).lateCount + 1) ∧
          frame = s.barrier.skyFrame + 1 ∧ policy = (s.barrier.channels[c]).policy

/-- The frame banks of a channel at an output frame start. Where no swap changes its raster, every bank keeps its tag, flag
and codes, and the line count and the truncated and replaced counters stay: the READY bank becomes SHOWN and the SHOWN bank
FREE if the channel is not enrolled or is a ready channel of P at a release, and otherwise both stay; a FILLING bank stays
unless the input is lost now, and a FREE one stays. Where a swap changes its raster: one bank stays SHOWN, and is cleared, tag
0: the READY one where it was promoted before the raster change, and else the SHOWN one; the others are FREE with their
contents; a FILLING bank freed by the raster change counts as truncated and a READY one as replaced. The order of the two and
of the loss of input is the command's operand (ch. 7, PROMOTION, LOSS OF INPUT and RASTER CHANGE AT A SWAP;
notes/assumptions/5.md). -/
def Obligations.PromotionAndRasterChange : Prop :=
  ∀ (i : Instr) (race : FrameRace) (s : State) (c : Channel), FrameStartTaken s i race → ReceiverOk s.receivers[c] →
    ∃ t, exec i s = .next t ∧
      (let promoted := PromotionDue s c
       let first := fun a : ReceiverAct => Before race.receivers[c] a .raster
       let counts := fun (k : Fin 8) (n : Word32) =>
        t.counters[Counter.ofChannel c k] = s.counters[Counter.ofChannel c k] + n
       (¬ RasterSwap s c → t.receivers[c].lineCount = s.receivers[c].lineCount ∧ counts 1 0 ∧ counts 3 0 ∧ ∀ j : Fin 3,
        t.receivers[c].banks[j] = { s.receivers[c].banks[j] with state := t.receivers[c].banks[j].state } ∧
        ((s.receivers[c].banks[j]).state = .free → (t.receivers[c].banks[j]).state = .free) ∧
        ((s.receivers[c].banks[j]).state = .filling →
          (t.receivers[c].banks[j]).state = if LostNow race s c then .free else .filling) ∧
        ((s.receivers[c].banks[j]).state = .ready →
          (t.receivers[c].banks[j]).state = if promoted then .shown else .ready) ∧
        ((s.receivers[c].banks[j]).state = .shown →
          (t.receivers[c].banks[j]).state = if promoted then .free else .shown)) ∧
       (RasterSwap s c → t.receivers[c].state ≠ .receiving ∧
        counts 1 (if s.receivers[c].state = .receiving ∧ ¬ (LostNow race s c ∧ first .loss) then 1 else 0) ∧
        counts 3 (if Ready s c ∧ ¬ (promoted ∧ first .promote) then 1 else 0) ∧
        ∃ j : Fin 3,
          (s.receivers[c].banks[j]).state = (if promoted ∧ first .promote then .ready else .shown) ∧
          t.receivers[c].banks[j] = { state := .shown, tag := 0, malformed := false, rows := Table.empty } ∧
          ∀ j' : Fin 3, j' ≠ j → t.receivers[c].banks[j'] = { s.receivers[c].banks[j'] with state := .free }))

/-- The loss count step of a receiver at an output frame start. In LOST the count and the state stay. Below the limit it goes
up by one, and the state stays, but that a raster change makes RECEIVING IDLE. At the limit the input is lost: the state is
LOST, the count has gone up, no bank is FILLING, the loss is counted, and INPUT_LOST is handed to the tile link and SL, with
the tag of the frame abandoned, if the loss finds one FILLING, and whether it finds a READY bank (ch. 7, LOSS OF INPUT and
NOTICES AND COUNTERS). What it finds depends on the order of the receiver's actions, the command's operand
(notes/assumptions/5.md). Where the header of the frame in reception fell together with the frame start and was taken first,
no loss is declared, at a limit of 1 too (R125); that the command's operand says so is the model's reading
(notes/assumptions/28.md). That a loss declared in IDLE is counted as one in RECEIVING is, is the model's choice
(notes/assumptions/29.md). -/
def Obligations.LossCountSteps : Prop :=
  ∀ (i : Instr) (race : FrameRace) (s : State) (c : Channel), FrameStartTaken s i race → ReceiverOk s.receivers[c] →
    ∃ t, exec i s = .next t ∧
      (s.receivers[c].state = .lost → t.receivers[c].state = .lost ∧ t.receivers[c].lossCount = s.receivers[c].lossCount) ∧
      (s.receivers[c].state ≠ .lost → t.receivers[c].lossCount = s.receivers[c].lossCount + 1) ∧
      (¬ LostNow race s c → t.counters[Counter.ofChannel c 6] = s.counters[Counter.ofChannel c 6] ∧
        t.receivers[c].state =
          if RasterSwap s c ∧ s.receivers[c].state = .receiving then .idle else s.receivers[c].state) ∧
      (LostNow race s c → t.receivers[c].state = .lost ∧ (∀ j : Fin 3, (t.receivers[c].banks[j]).state ≠ .filling) ∧
        t.counters[Counter.ofChannel c 6] = s.counters[Counter.ofChannel c 6] + 1) ∧
      ∀ (l : Link) (tag : Option Word32) (held : Bool), .inputLost c tag held ∈ handedTo race s l ↔
        (l = tileLink c ∨ l = 12) ∧ LostNow race s c ∧
          (let found := fun a : ReceiverAct => ¬ Before race.receivers[c] a .loss
           (∀ v, tag = some v ↔ (RasterSwap s c → found .raster) ∧
            ∃ j : Fin 3, (s.receivers[c].banks[j]).state = .filling ∧ (s.receivers[c].banks[j]).tag = v) ∧
           (held = true ↔ Ready s c ∧ (RasterSwap s c → found .raster) ∧ (PromotionDue s c → found .promote)))

/-- Tag skew at a release: the channels that count are those of P whose promotion hands a tag back, each with that tag; the
lowest-numbered is the reference; each channel whose tag differs has its skews counter up by one and a SKEW notice, with
both tags, the reference and the new sky frame number, handed to its tile link and SL; and the skew releases counter goes up
by one if there is any. At a frame start without a release, and at one where no tag is handed back, no skew is counted and
no SKEW notice handed (ch. 8, TAG SKEW). -/
def Obligations.TagSkewCounted : Prop :=
  (∀ (i : Instr) (race : FrameRace) (s : State), FrameStartTaken s i race → FramesSound s →
    (¬ ReleaseDue s ∨ ∀ c tag, InP s c → ¬ HandsBack race s c tag) →
    ∃ t, exec i s = .next t ∧ t.counters[7] = s.counters[7] ∧
      (∀ c : Channel, t.counters[Counter.ofChannel c 7] = s.counters[Counter.ofChannel c 7]) ∧
      ∀ (l : Link) (c ref : Channel) (tag refTag frame : Word32), .skew c tag ref refTag frame ∉ handedTo race s l) ∧
  ∀ (i : Instr) (race : FrameRace) (s : State) (ref : Channel) (refTag : Word32), FrameStartTaken s i race →
    FramesSound s → ReleaseDue s → InP s ref → HandsBack race s ref refTag →
    (∀ c tag, InP s c → HandsBack race s c tag → ref.val ≤ c.val) →
    ∃ t, exec i s = .next t ∧
      (∀ c : Channel,
        ((∃ tag, SkewedFrom race s refTag c tag) →
          t.counters[Counter.ofChannel c 7] = s.counters[Counter.ofChannel c 7] + 1) ∧
        ((∀ tag, ¬ SkewedFrom race s refTag c tag) →
          t.counters[Counter.ofChannel c 7] = s.counters[Counter.ofChannel c 7])) ∧
      ((∃ c tag, SkewedFrom race s refTag c tag) → t.counters[7] = s.counters[7] + 1) ∧
      ((∀ c tag, ¬ SkewedFrom race s refTag c tag) → t.counters[7] = s.counters[7]) ∧
      ∀ (l : Link) (c r : Channel) (tag rTag frame : Word32), .skew c tag r rTag frame ∈ handedTo race s l ↔
        (l = tileLink c ∨ l = 12) ∧ SkewedFrom race s refTag c tag ∧ r = ref ∧ rTag = refTag ∧
          frame = s.barrier.skyFrame + 1

/-- The notices of a frame start. What is handed to a port is all that its outbound queue, its notices-lost flag and its
notices-lost counter change by. Each is handed once; the STALLED and the SWAPPED notices come before the SKEW notices, and
these before RELEASE. At a release, and at no other frame start, every enrolled channel's tile link is handed a RELEASE with
the new sky frame number, whether the release is forced, and the outcome: HELD_STALLED if stalled, HELD_LATE if unready,
SWAPPED with the tag handed back, if any, if ready; and SL is handed the summary with the channels of P that were ready, those
that were not, and whether a swap was taken. Beside these only SWAPPED, STALLED, SKEW and INPUT_LOST are handed (ch. 8,
RELEASE NOTICES; ch. 10, NOTICES AND THE OUTBOUND QUEUE). That SWAPPED comes before SKEW is the model's reading
(notes/assumptions/25.md); the order that is left is the command's operand, port by port (notes/assumptions/5.md). -/
def Obligations.ReleaseNoticesQueued : Prop :=
  ∀ (i : Instr) (race : FrameRace) (s : State) (l : Link), FrameStartTaken s i race → FramesSound s →
    ∃ t, exec i s = .next t ∧
      t.ports[l] = (handAll ((handedTo race s l).map fun b => (l, b)) s).ports[l] ∧
      t.counters[Counter.ofLink l 3] =
        (handAll ((handedTo race s l).map fun b => (l, b)) s).counters[Counter.ofLink l 3] ∧
      (handedTo race s l).Nodup ∧
      (handedTo race s l).Pairwise (fun a b => ∀ m n, noticeStage a = some m → noticeStage b = some n → m ≤ n) ∧
      (∀ b ∈ handedTo race s l, b.kind ≠ .timing ∧ (b.kind = .commit → ∃ k n f p, b = .swapped k n f p) ∧
        (b.kind = .channel → (∃ c f p, b = .stalled c f p) ∨ (∃ c v r w f, b = .skew c v r w f) ∨
          ∃ c v h, b = .inputLost c v h)) ∧
      (let forcedIs := fun forced : Bool => forced = true ↔ ∃ c, InP s c ∧ ¬ Ready s c
       (∀ (frame : Word32) (forced : Bool) (outcome : ReleaseOutcome),
        .release frame forced outcome ∈ handedTo race s l ↔
          ∃ c : Channel, l = tileLink c ∧ ReleaseDue s ∧ (s.barrier.channels[c]).enrolled = true ∧
            frame = s.barrier.skyFrame + 1 ∧ forcedIs forced ∧
            ((s.barrier.channels[c]).stalled = true → outcome = .heldStalled) ∧
            (InP s c → ¬ Ready s c → outcome = .heldLate) ∧
            (InP s c → Ready s c → ∃ tag, outcome = .swapped tag ∧ ∀ v, tag = some v ↔ HandsBack race s c v)) ∧
       ∀ (frame : Word32) (forced : Bool) (turned late : ChannelSet) (taken : Bool),
        .summary frame forced turned late taken ∈ handedTo race s l ↔
          l = 12 ∧ ReleaseDue s ∧ frame = s.barrier.skyFrame + 1 ∧ forcedIs forced ∧ (taken = true ↔ AnySwap s) ∧
            ∀ c : Channel, (turned.getLsbD c.val = true ↔ InP s c ∧ Ready s c) ∧
              (late.getLsbD c.val = true ↔ InP s c ∧ ¬ Ready s c))

/-! ### Barrier requests (chapter 8) -/

/-- ENROLL and WITHDRAW of one or more channels, from SL or of the tile link's own channel: each named channel joins, or
leaves, the enrollment set with its stalled flag clear and its late count 0 unless it is there already, or is not; policies
and dark flags stay. The response carries the enrollment set after the request. A mask that names no channel or a bit above 11
is refused BAD_FIELD, and then one that names another channel from a tile link NOT_PERMITTED (ch. 8, REQUESTS; ch. 10, ROLES
AND MODES). -/
def Obligations.EnrollmentChanges : Prop :=
  (∀ (i : Instr) (l : Link) (k : Byte) (p : List Byte) (s : State),
    (i = .enroll l ∧ k = 0x40#8) ∨ (i = .withdraw l ∧ k = 0x41#8) → Waits l k p s → p.length = 2 →
    (let bad := u16 p 0 = 0 ∨ 4096 ≤ u16 p 0
     (bad → Refuses i l k .badField s) ∧ (¬ bad → l ≠ 12 → u16 p 0 ≠ 2 ^ l.val → Refuses i l k .notPermitted s))) ∧
  ∀ (i : Instr) (join : Bool) (l : Link) (k : Byte) (p : List Byte) (s : State),
    (i = .enroll l ∧ k = 0x40#8 ∧ join = true) ∨ (i = .withdraw l ∧ k = 0x41#8 ∧ join = false) →
    Waits l k p s → p.length = 2 → 0 < u16 p 0 → u16 p 0 < 4096 → (l = 12 ∨ u16 p 0 = 2 ^ l.val) →
    ∃ (cs : Vector BarrierChannel 12) (set : ChannelSet),
      exec i s = .next (answered l (acceptance k false (.enrollment set))
        { s with barrier := { s.barrier with channels := cs } }) ∧
      (∀ c : Channel, set.getLsbD c.val = (cs[c]).enrolled) ∧
      ∀ c : Channel, cs[c] =
        if (u16 p 0).testBit c.val = true ∧ (s.barrier.channels[c]).enrolled ≠ join then
          { s.barrier.channels[c] with enrolled := join, stalled := false, lateCount := 0 }
        else s.barrier.channels[c]

/-- SET_BARRIER writes the values its mask selects, each above its ceiling taken as the ceiling, and sets every late count to
0; SET_CADENCE writes the reload latch and leaves the counter. Nothing else of the part changes. SET_BARRIER that selects
nothing, a loss limit of 0, a policy for no channel or a bit above 11, or a policy that is neither 0 nor 1, and SET_CADENCE
outside 1 to 4, are refused BAD_FIELD (ch. 8, REQUESTS and CADENCE; ch. 10, ROLES AND MODES). -/
def Obligations.BarrierSettings : Prop :=
  (∀ (p : List Byte) (s : State), Waits 12 0x42#8 p s → p.length = 8 →
    ((bitAt p 0 0 || bitAt p 0 1 || bitAt p 0 2 || bitAt p 0 3) = false ∨ (bitAt p 0 2 = true ∧ u8 p 4 = 0) ∨
      (bitAt p 0 3 = true ∧ (u16 p 5 = 0 ∨ 4096 ≤ u16 p 5 ∨ 1 < u8 p 7))) →
    Refuses (.setBarrier 12) 12 0x42#8 .badField s) ∧
  (∀ (p : List Byte) (s : State), Waits 12 0x43#8 p s → p.length = 1 → (u8 p 0 = 0 ∨ 4 < u8 p 0) →
    Refuses (.setCadence 12) 12 0x43#8 .badField s) ∧
  (∀ (p : List Byte) (s : State), Waits 12 0x42#8 p s → p.length = 8 →
    (bitAt p 0 0 || bitAt p 0 1 || bitAt p 0 2 || bitAt p 0 3) = true →
    (bitAt p 0 2 = true → 0 < u8 p 4) →
    (bitAt p 0 3 = true → 0 < u16 p 5 ∧ u16 p 5 < 4096 ∧ u8 p 7 ≤ 1) →
    exec (.setBarrier 12) s = .next
      (let timeout := if bitAt p 0 0 = true then min 255 (u16 p 1) else s.barrier.timeout
       let stallLimit := if bitAt p 0 1 = true then min 15 (u8 p 3) else s.barrier.stallLimit
       let lossLimit := if bitAt p 0 2 = true then min 15 (u8 p 4) else s.barrier.lossLimit
       let clamped := decide ((bitAt p 0 0 = true ∧ 255 < u16 p 1) ∨ (bitAt p 0 1 = true ∧ 15 < u8 p 3) ∨
        (bitAt p 0 2 = true ∧ 15 < u8 p 4))
       answered 12 (acceptance 0x42#8 clamped (.barrier timeout stallLimit lossLimit))
        { s with barrier := { s.barrier with
            timeout := timeout, stallLimit := stallLimit, lossLimit := lossLimit
            channels := Vector.ofFn fun c => { s.barrier.channels[c] with
              lateCount := 0
              policy := if bitAt p 0 3 = true ∧ (u16 p 5).testBit c.val = true then
                  (if u8 p 7 = 0 then .hold else .dark)
                else (s.barrier.channels[c]).policy } } })) ∧
  ∀ (p : List Byte) (s : State), Waits 12 0x43#8 p s → p.length = 1 → 1 ≤ u8 p 0 → u8 p 0 ≤ 4 →
    exec (.setCadence 12) s = .next (answered 12 (acceptance 0x43#8 false (.cadence (u8 p 0) s.barrier.cadence))
      { s with barrier := { s.barrier with reload := u8 p 0 } })

/-! ### Timing, outputs and fade (chapter 9) -/

/-- FADE sets the target and the remaining count, clamped to 4096 and 4095, and leaves F. OUTPUT_ON and OUTPUT_OFF move each
named output by its state and leave the others; the response carries all twelve states in channel order. A mask that names no
channel or a bit above 11 is refused BAD_FIELD (ch. 9, OUTPUT STATES and THE FADE UNIT). -/
def Obligations.FadeAndOutputsSet : Prop :=
  (∀ (i : Instr) (k : Byte) (p : List Byte) (s : State),
    (i = .outputOn 12 ∧ k = 0x51#8) ∨ (i = .outputOff 12 ∧ k = 0x52#8) → Waits 12 k p s → p.length = 2 →
    (u16 p 0 = 0 ∨ 4096 ≤ u16 p 0) → Refuses i 12 k .badField s) ∧
  (∀ (p : List Byte) (s : State), Waits 12 0x50#8 p s → p.length = 4 →
    exec (.fade 12) s = .next
      (let f : Fade := { level := s.fade.level, target := min 4096 (u16 p 0), remaining := min 4095 (u16 p 2) }
       answered 12 (acceptance 0x50#8 (decide (4096 < u16 p 0 ∨ 4095 < u16 p 2)) (.fade f)) { s with fade := f })) ∧
  ∀ (i : Instr) (on : Bool) (k : Byte) (p : List Byte) (s : State),
    (i = .outputOn 12 ∧ k = 0x51#8 ∧ on = true) ∨ (i = .outputOff 12 ∧ k = 0x52#8 ∧ on = false) →
    Waits 12 k p s → p.length = 2 → 0 < u16 p 0 → u16 p 0 < 4096 →
    ∃ os : Vector OutputState 12,
      exec i s = .next (answered 12 (acceptance k false (.outputs os.toList))
        { s with timing := { s.timing with outputs := os } }) ∧
      ∀ c : Channel, os[c] =
        if (u16 p 0).testBit c.val = true then
          match s.timing.outputs[c], on with
          | .disabled, true => .starting
          | .starting, true => .starting
          | .active, true => .active
          | .stopping, true => .active
          | .disabled, false => .disabled
          | .starting, false => .disabled
          | .active, false => .stopping
          | .stopping, false => .stopping
        else s.timing.outputs[c]

/-- SET_TIMING with a source that is neither 0 nor 1, or INTERNAL with a rate outside 24 to 144, is refused BAD_FIELD.
INTERNAL sets the source, the rate, the period 1,000,000,000 div rate, the state FREE, an empty list and no last edge;
EXTERNAL sets the source and the state ACQUIRE with an empty list and keeps the period. A change of state is notified to SL.
If INTERNAL finds that one new period after the previous output frame start has passed, the output frame start is taken at
once (ch. 9, SELECTING THE SOURCE). The order of the notice and the response is the command's operand
(notes/assumptions/14.md); that the frame start comes after both is the model's reading (notes/assumptions/22.md), and the
clock is the model's own (notes/assumptions/7.md). -/
def Obligations.SetTimingSelects : Prop :=
  ∀ (k : TimingTaking) (p : List Byte) (s : State), Waits 12 0x53#8 p s → p.length = 2 →
    ((1 < u8 p 0 ∨ (u8 p 0 = 0 ∧ (u8 p 1 < 24 ∨ 144 < u8 p 1))) → Refuses (.setTiming 12 k) 12 0x53#8 .badField s) ∧
    ((u8 p 0 = 1 ∨ (u8 p 0 = 0 ∧ 24 ≤ u8 p 1 ∧ u8 p 1 ≤ 144)) →
      (let now := max s.timing.clock k.time
       let t : Timing := if u8 p 0 = 0 then
          { s.timing with source := .internal, rate := u8 p 1, period := 1000000000 / u8 p 1, state := .free
                          intervals := [], lastEdge := none, substituted := false, clock := now }
        else { s.timing with source := .external, state := .acquire, intervals := [], substituted := false, clock := now }
       let r := acceptance 0x53#8 false (.timing t.source t.state t.period)
       let notices : List (Link × NoticeBody) :=
        if t.state = s.timing.state then [] else [(12, .timing t.state s.timing.state t.source t.period)]
       let u := match k.order with
        | .responseFirst => handAll notices (answered 12 r { s with timing := t })
        | .noticeFirst => answered 12 r (handAll notices { s with timing := t })
       exec (.setTiming 12 k) s =
        if u8 p 0 = 0 ∧ s.timing.lastFrameStart + 1000000000 / u8 p 1 < now then exec (.outputFrameStart k.race) u
        else .next u))

/-- SET_RASTER outside 640 to 2560 by 480 to 1600 is refused BAD_FIELD, in SHOW mode HELD, with an output not DISABLED
OUTPUTS_ACTIVE, in this order; otherwise it sets the output raster (ch. 9, THE OUTPUT RASTER). -/
def Obligations.SetRasterChecked : Prop :=
  ∀ (p : List Byte) (s : State), Waits 12 0x54#8 p s → p.length = 4 →
    exec (.setRaster 12) s = .next
      (if u16 p 0 < 640 ∨ 2560 < u16 p 0 ∨ u16 p 2 < 480 ∨ 1600 < u16 p 2 then
        answered 12 (refusal 0x54#8 .badField) s
       else if s.mode = .showing then answered 12 (refusal 0x54#8 .held) s
       else if ∃ c : Channel, s.timing.outputs[c] ≠ .disabled then answered 12 (refusal 0x54#8 .outputsActive) s
       else answered 12 (acceptance 0x54#8 false (.raster (u16 p 0) (u16 p 2)))
        { s with timing := { s.timing with width := u16 p 0, height := u16 p 2 } })

/-- A REF edge. Under INTERNAL it is ignored. Otherwise it becomes the last edge, and: the first edge does nothing more; in
ACQUIRE an interval in range is listed, the oldest of four going first, four agreeing within 1/512 of their mean lock the
timing at that mean, and one out of range empties the list; in LOCKED an edge out of tolerance returns to ACQUIRE with its
interval listed, or with an empty list if it is out of range, and an edge within tolerance that follows a substitute stays
LOCKED; in HOLDOVER it returns to ACQUIRE with an empty list. No frame start is taken, and a change of state is notified to
SL. HOLDOVER_ENTRY after a substitute keeps the period, counts a lock loss and notifies (ch. 9, MEASURING THE REFERENCE to
HOLDOVER). The clock is the model's own (notes/assumptions/7.md, 8.md). -/
def Obligations.RefEdgesMeasured : Prop :=
  (∀ (time : Nat) (race : FrameRace) (s : State), s.resetHeld = false → s.timing.source = .internal →
    exec (.refEdge time race) s = .next s) ∧
  (∀ (time : Nat) (race : FrameRace) (s : State),
    s.resetHeld = false → s.timing.source = .external → s.timing.lastEdge = none →
    exec (.refEdge time race) s = .next { s with timing := { s.timing with
      lastEdge := some (max s.timing.clock time), clock := max s.timing.clock time } }) ∧
  (∀ (time e : Nat) (race : FrameRace) (s : State),
    s.resetHeld = false → s.timing.source = .external → s.timing.lastEdge = some e →
    ¬ FrameStartTaken s (.refEdge time race) race →
    exec (.refEdge time race) s = .next
      (let i := intervalAt s time e
       let inRange := decide (Config.minInterval ≤ i ∧ i ≤ Config.maxInterval)
       let near := decide (i ≤ s.timing.period + s.timing.period / 256 ∧ s.timing.period ≤ i + s.timing.period / 256)
       let t : Timing := { s.timing with lastEdge := some (max s.timing.clock time), clock := max s.timing.clock time }
       let listed := (if 4 ≤ s.timing.intervals.length then s.timing.intervals.tail else s.timing.intervals) ++ [i]
       let agree := decide (listed.length = 4 ∧
        ∀ a ∈ listed, ∀ b ∈ listed, 512 * (a - b) ≤ listed.sum / 4)
       let t' : Timing := match s.timing.state with
        | .free => t
        | .acquire =>
          if !inRange then { t with intervals := [] }
          else if agree then
            { t with state := .locked, period := listed.sum / 4, intervals := [], substituted := false }
          else { t with intervals := listed }
        | .locked =>
          if inRange && near then { t with substituted := false }
          else { t with state := .acquire, intervals := if inRange then [i] else [], substituted := false }
        | .holdover => { t with state := .acquire, intervals := [], substituted := false }
       handAll (if t'.state = s.timing.state then [] else
          [((12 : Link), NoticeBody.timing t'.state s.timing.state t'.source t'.period)]) { s with timing := t' })) ∧
  ∀ (e : Nat) (s : State), s.resetHeld = false → s.timing.state = .locked → s.timing.substituted = true →
    s.timing.lastEdge = some e →
    exec .holdoverEntry s = .next
      (hand 12 (.timing .holdover .locked s.timing.source s.timing.period)
        (counted 5 { s with timing := { s.timing with
          state := .holdover, substituted := false, clock := max s.timing.clock (e + 2 * s.timing.period) } }))

/-! ### Pixels (chapter 4) -/

/-- The pixel an engine delivers: code 0 where the output is DISABLED or STARTING, or a corner of the cell is VOID;
otherwise the source position, the weight and the lift are interpolated between the four corner nodes of the cell, and each
colour is the output LUT read at the lift plus the content light, where the content is 0 if the channel is dark, a RESTART
came in this frame, or the source position is out of range, and else the blend of the four decoded neighbour pixels. The engine then moves on in raster order; before
the first frame and after the last pixel no pixel is delivered (ch. 4; notes/assumptions/18.md). -/
def Obligations.PixelDelivered : Prop :=
  (∀ (c : Channel) (s : State) (x : FrameContext), s.resetHeld = false → s.engines[c].context = some x →
    s.engines[c].y < x.height →
    ∃ e : PixelEngine, exec (.pixelDelivery c) s = .next { s with engines := put s.engines c e } ∧
      e.context = some x ∧
      (e.x, e.y) = (if s.engines[c].x + 1 < x.width then (s.engines[c].x + 1, s.engines[c].y)
        else (0, s.engines[c].y + 1)) ∧
      (let b := if x.bankIsB then s.tables.bankB else s.tables.bankA
       let col := s.engines[c].x
       let row := s.engines[c].y
       let n00 := b.node c (41 * (row / 64) + col / 64)
       let n10 := b.node c (41 * (row / 64) + (col / 64 + 1))
       let n01 := b.node c (41 * (row / 64 + 1) + col / 64)
       let n11 := b.node c (41 * (row / 64 + 1) + (col / 64 + 1))
       let cx : Int := (col % 64 : Nat)
       let cy : Int := (row % 64 : Nat)
       let at_ := fun f : Node → Int =>
        ((64 - cx) * (64 - cy) * f n00 + cx * (64 - cy) * f n10 + (64 - cx) * cy * f n01 + cx * cy * f n11 + 2048) / 4096
       let u := at_ Node.u
       let v := at_ Node.v
       let weight := (at_ fun n => (n.weight : Int)).toNat
       let lift := (at_ fun n => (n.lift : Int)).toNat
       let r := b.records[c]
       let px := u.toNat / 16
       let py := v.toNat / 16
       let fu := u.toNat % 16
       let fv := v.toNat % 16
       let right := min (px + 1) (r.width - 1)
       let below := min (py + 1) (r.height - 1)
       let decoded := fun (k : Colour) (x' y' : Nat) =>
        b.inputEntry (Pixel.code ((s.receivers[c].banks[x.shown]).pixel x' y') k)
       let light := fun k : Colour =>
        if x.dark = true ∨ x.contentOff = true ∨ u < 0 ∨ v < 0 ∨ 16 * ((r.width : Int) - 1) < u ∨
            16 * ((r.height : Int) - 1) < v then 0
        else ((16 - fu) * (16 - fv) * decoded k px py + fu * (16 - fv) * decoded k right py +
          (16 - fu) * fv * decoded k px below + fu * fv * decoded k right below + 128) / 256
       let code := fun k : Colour =>
        let t1 := (light k * weight + 2048) / 4096
        let t2 := (t1 * r.gain k + 2048) / 4096
        let t3 := (t2 * x.fade + 2048) / 4096
        let o := lift + (t3 * b.sky.headroom + 32768) / 65536
        (b.outputEntry c k (o / 64) * (64 - o % 64) + b.outputEntry c k (o / 64 + 1) * (o % 64) + 32) / 64
       e.out =
        if s.timing.outputs[c] = .disabled ∨ s.timing.outputs[c] = .starting ∨ n00.isVoid = true ∨ n10.isVoid = true ∨
            n01.isVoid = true ∨ n11.isVoid = true then { r := 0, g := 0, b := 0 }
        else { r := code .r, g := code .g, b := code .b })) ∧
  (∀ (c : Channel) (s : State), s.resetHeld = false → s.engines[c].context = none →
    exec (.pixelDelivery c) s = .next
      (let e : PixelEngine := { s.engines[c] with out := { r := 0, g := 0, b := 0 } }
       { s with engines := put s.engines c e })) ∧
  ∀ (c : Channel) (s : State) (x : FrameContext), s.resetHeld = false → s.engines[c].context = some x →
    x.height ≤ s.engines[c].y → exec (.pixelDelivery c) s = .next s

/-- The coefficients of the corners, (64 − a)(64 − b), a(64 − b), (64 − a)b and ab, sum to 4096, and the interpolated value is
the sum of the corners each times its coefficient, plus 2048, over 4096, rounded toward −∞; an interpolated value lies between the smallest and the largest of its
corners; it is their common value where they are equal, and the corner's own value at a pixel on a node; a sum of exactly
half a unit above an integer gives the upper one, and a sum of −64 gives −1 (R62). -/
def Obligations.InterpolationStaysBetweenCorners : Prop :=
  (∀ x y : Nat, (let c := coefficients 64 (x % 64) (y % 64)
    c.q00 = (64 - x % 64) * (64 - y % 64) ∧ c.q10 = x % 64 * (64 - y % 64) ∧ c.q01 = (64 - x % 64) * (y % 64) ∧
      c.q11 = x % 64 * (y % 64) ∧ c.q00 + c.q10 + c.q01 + c.q11 = 4096 ∧
      ∀ q : Corners Int,
        interpolate x y q = (c.q00 * q.q00 + c.q10 * q.q10 + c.q01 * q.q01 + c.q11 * q.q11 + 2048) / 4096)) ∧
  (∀ (x y : Nat) (q : Corners Int) (lo hi : Int),
    lo ≤ q.q00 → lo ≤ q.q10 → lo ≤ q.q01 → lo ≤ q.q11 → q.q00 ≤ hi → q.q10 ≤ hi → q.q01 ≤ hi → q.q11 ≤ hi →
    lo ≤ interpolate x y q ∧ interpolate x y q ≤ hi) ∧
  (∀ (x y : Nat) (v : Int), interpolate x y { q00 := v, q10 := v, q01 := v, q11 := v } = v) ∧
  (∀ (x y : Nat) (q : Corners Int), x % 64 = 0 → y % 64 = 0 → interpolate x y q = q.q00) ∧
  (∀ (x y : Nat) (q : Corners Int) (n : Int),
    weighted (coefficients 64 (x % 64) (y % 64)) q = 4096 * n + 2048 → interpolate x y q = n + 1) ∧
  ∀ (x y : Nat) (q : Corners Int),
    weighted (coefficients 64 (x % 64) (y % 64)) q + 2048 = -64 → interpolate x y q = -1

/-! ### The Request Unit's own requests, RESTART and reads (chapters 10 and 11) -/

/-- SET_MODE sets the mode, or is refused BAD_FIELD for a value other than 0 and 1; SET_NOTICES sets the mask of its own
link, or is refused BAD_FIELD for a bit above bit 3. Nothing else changes (ch. 10, ROLES AND MODES and NOTICES). -/
def Obligations.ModeAndNoticeMask : Prop :=
  (∀ (p : List Byte) (s : State), Waits 12 0x60#8 p s → p.length = 1 →
    exec (.setMode 12) s = .next
      (if 1 < u8 p 0 then answered 12 (refusal 0x60#8 .badField) s
       else
        let m : Mode := if u8 p 0 = 0 then .setup else .showing
        answered 12 (acceptance 0x60#8 false (.mode m)) { s with mode := m })) ∧
  ∀ (l : Link) (p : List Byte) (s : State), Waits l 0x62#8 p s → p.length = 1 →
    exec (.setNotices l) s = .next
      (if 15 < u8 p 0 then answered l (refusal 0x62#8 .badField) s
       else
        let m : NoticeMask :=
          { release := (u8 p 0).testBit 0, commit := (u8 p 0).testBit 1, channel := (u8 p 0).testBit 2
            timing := (u8 p 0).testBit 3 }
        answered l (acceptance 0x62#8 false (.notices m)) (withPort l { s.ports[l] with mask := m } s))

/-- RESTART from SL. ACTIVE and SHADOW, the timing, the raster and the outputs stay; the mode is SETUP, the queue empty, the
engine IDLE with a commit in flight or armed recorded ABORTED, the receivers LOST with bank 0 cleared, the barrier and the
fade at their reset values, every counter 0; frames in progress go on without content; every port keeps its line, receiver,
mask and buffer and its queued messages; SL's response is appended first; a request in process is answered BUSY; and the
ABORTED notice of cause RESTART is handed to the committing link and to SL, behind SL's response (ch. 6, RESTART, HARD RESET
AND LINK BREAK; ch. 10, RESETS AS EVENTS). The order of the BUSY response and the notice on one link is the command's operand
(notes/assumptions/14.md), and that the counters are zeroed last, a loss counted by that notice with them, is the model's
reading (notes/assumptions/15.md). -/
def Obligations.RestartResets : Prop :=
  ∀ (o : Handing) (s : State), Waits 12 0x61#8 [] s →
    ∃ t, exec (.restart 12 o) s = .next t ∧
      t.resetHeld = false ∧ t.mode = .setup ∧ t.tables = s.tables ∧ t.timing = s.timing ∧ t.pending = s.pending ∧
      t.staging = { records := [], mark := none, pointer := 0 } ∧
      t.engine.state = .idle ∧ (s.engine.state = .idle → t.engine = s.engine) ∧
      (∀ k, s.engine.state ≠ .idle → s.engine.current = some k →
        t.engine = { state := .idle, current := none
                     last := { outcome := { result := .aborted, error := .none, item := none, link := some k.link
                                            count := k.count, swapFrame := none }
                               floor := s.engine.last.floor } }) ∧
      (∀ c : Channel, t.receivers[c].state = .lost ∧ t.receivers[c].lossCount = 0 ∧ t.receivers[c].lineCount = 0 ∧
        t.receivers[c].banks[0] = { state := .shown, tag := 0, malformed := false, rows := Table.empty } ∧
        ∀ j : Fin 3, j ≠ 0 →
          t.receivers[c].banks[j] = { s.receivers[c].banks[j] with state := .free, tag := 0, malformed := false }) ∧
      t.barrier = { channels := Vector.replicate 12
                      { enrolled := false, policy := .hold, stalled := false, lateCount := 0, dark := false }
                    reload := 1, cadence := 0, waitCount := 0, timeout := 2, stallLimit := 8, lossLimit := 4
                    skyFrame := 0 } ∧
      t.fade = { level := 0, target := 0, remaining := 0 } ∧
      (∀ c : Channel, t.engines[c] = { s.engines[c] with
        context := s.engines[c].context.map fun x => { x with contentOff := true } }) ∧
      (∀ n : CounterIx, t.counters[n] = 0) ∧
      (∀ l : Link, t.ports[l] = { s.ports[l] with
        inProcess := none
        buffer := if l = 12 then s.ports[l].buffer.tail else s.ports[l].buffer
        outbound := t.ports[l].outbound
        lostFlag := t.ports[l].lostFlag }) ∧
      (let asked := fun (l : Link) (p : Port) => if l = 12 then
          { p with buffer := p.buffer.tail, outbound := p.outbound ++ [.response (acceptance 0x61#8 false .empty)] }
        else p
       let ended := fun p : Port => { p with
        inProcess := none
        outbound := p.outbound ++ (match p.inProcess with
          | none => []
          | some q => [.response (refusal q.kind .busy)]) }
       let told := match s.engine.state, s.engine.current with
        | .idle, _ => []
        | _, none => []
        | st, some k => toCommitter k.link (.aborted k.link k.count st .restart)
       ∀ l : Link, t.ports[l] = match o with
        | .responseFirst =>
          (handAll told { s with ports := Vector.ofFn fun m => ended (asked m s.ports[m]) }).ports[l]
        | .noticeFirst => ended (handAll told { s with ports := Vector.ofFn fun m => asked m s.ports[m] }).ports[l]) ∧
      (∀ l : Link, noticeCount s.ports[l].outbound < 15 → ∃ rest, t.ports[l].outbound = s.ports[l].outbound ++ rest) ∧
      responsesIn t.ports[(12 : Link)].outbound = [acceptance 0x61#8 false .empty] ∧
      ∀ l : Link, l ≠ 12 → responsesIn t.ports[l].outbound =
        responsesIn s.ports[l].outbound ++ (match s.ports[l].inProcess with
          | none => []
          | some q => [refusal q.kind .busy])

/-- READ_NODES returns the nodes of a run of one channel, READ_SEAM a seam record with the pool summary, or NOT_FOUND with
the pool summary: of ACTIVE, or of SHADOW while the engine is ARMED; SHADOW at any other time is refused NOT_ARMED. Before
that a field out of range is refused BAD_FIELD, and a run past the grid BAD_INDEX. Neither changes anything (ch. 1, READING
NODES; ch. 2, READING SEAMS). -/
def Obligations.TablesReadBack : Prop :=
  (∀ (l : Link) (p : List Byte) (s : State), Waits l 0x70#8 p s → p.length = 5 →
    (let bad := 1 < u8 p 0 ∨ 12 ≤ u8 p 1 ∨ u8 p 4 = 0 ∨ 64 < u8 p 4
     (bad → Refuses (.readNodes l) l 0x70#8 .badField s) ∧
     (¬ bad → 1066 < u16 p 2 + u8 p 4 → Refuses (.readNodes l) l 0x70#8 .badIndex s))) ∧
  (∀ (l : Link) (p : List Byte) (s : State), Waits l 0x71#8 p s → p.length = 2 → (1 < u8 p 0 ∨ 48 ≤ u8 p 1) →
    Refuses (.readSeam l) l 0x71#8 .badField s) ∧
  (∀ (l : Link) (p : List Byte) (s : State) (c : Channel),
    Waits l 0x70#8 p s → p.length = 5 → u8 p 0 ≤ 1 → u8 p 1 = c.val → 1 ≤ u8 p 4 → u8 p 4 ≤ 64 →
    u16 p 2 + u8 p 4 ≤ 1066 →
    (u8 p 0 = 1 → s.engine.state ≠ .armed → exec (.readNodes l) s = .next (answered l (refusal 0x70#8 .notArmed) s)) ∧
    ((u8 p 0 = 1 → s.engine.state = .armed) → ∃ ns : List Node,
      exec (.readNodes l) s = .next (answered l (acceptance 0x70#8 false (.nodes ns)) s) ∧ ns.length = u8 p 4 ∧
      ∀ j, j < u8 p 4 → ns[j]? =
        some ((if u8 p 0 = 0 then s.tables.active else s.tables.shadow).node c (u16 p 2 + j)))) ∧
  ∀ (l : Link) (p : List Byte) (s : State) (id : SeamId),
    Waits l 0x71#8 p s → p.length = 2 → u8 p 0 ≤ 1 → u8 p 1 = id.val →
    (u8 p 0 = 1 → s.engine.state ≠ .armed → exec (.readSeam l) s = .next (answered l (refusal 0x71#8 .notArmed) s)) ∧
    ((u8 p 0 = 1 → s.engine.state = .armed) →
      let b := if u8 p 0 = 0 then s.tables.active else s.tables.shadow
      exec (.readSeam l) s = .next (answered l
        (match b.seams[id] with
        | none => { kind := 0x71#8, code := .notFound, clamped := false, isPartial := false
                    body := .pool b.poolOccupancy b.seamCount }
        | some m => acceptance 0x71#8 false (.seam b.poolOccupancy b.seamCount id m)) s))

/-- READ_STATUS answers the global record for FFh and a channel's record for 0 to 11, each field as its owner holds it, and
is refused BAD_FIELD for any other selector; the bodies carry the fields in the order, width and code that the spec gives
them, 67 and 37 bytes in all. It changes nothing (ch. 11, STATUS RECORDS; ch. 10, REQUESTS). -/
def Obligations.StatusRecords : Prop :=
  ∀ (l : Link) (p : List Byte) (s : State), Waits l 0x72#8 p s → p.length = 1 →
    (u8 p 0 = 255 → ∃ g : GlobalStatus,
      exec (.readStatus l) s = .next (answered l (acceptance 0x72#8 false (.globalStatus g)) s) ∧
      (Body.globalStatus g).bytes.length = 67 ∧
      (Body.globalStatus g).bytes =
        [Wire.mode g.mode, Wire.source g.source, Wire.timing g.timingState] ++ leBytes 1 g.rate ++ leBytes 4 g.period ++
        leBytes 2 g.width ++ leBytes 2 g.height ++
        [Wire.floorMode g.floorMode] ++ leBytes 2 g.phiSet ++ leBytes 1 g.tau ++ leBytes 2 g.phi ++
        [Wire.commit g.commitState, Wire.result g.last.outcome.result, Wire.error g.last.outcome.error] ++
        Wire.item g.last.outcome.item ++ [Wire.link g.last.outcome.link] ++ leBytes 2 g.last.outcome.count ++
        (match g.last.outcome.swapFrame with
          | none => [0xFF#8, 0xFF#8, 0xFF#8, 0xFF#8]
          | some n => Wire.word n) ++ Wire.floor g.last.floor ++
        leBytes 2 g.occupancy ++ leBytes 2 g.recordCount ++ (match g.mark with
          | none => [0xFF#8, 0xFF#8, 0xFF#8, 0xFF#8]
          | some m => leBytes 2 m.count ++ leBytes 2 m.units) ++
        Wire.word g.skyFrame ++ Wire.channels g.enrolled ++ Wire.channels g.stalled ++ Wire.channels g.dark ++
        leBytes 1 g.reload ++ leBytes 1 g.cadence ++ leBytes 1 g.timeout ++ leBytes 1 g.stallLimit ++
        leBytes 1 g.lossLimit ++ leBytes 2 g.waitCount ++
        leBytes 2 g.fade.level ++ leBytes 2 g.fade.target ++ leBytes 2 g.fade.remaining ∧
      g.mode = s.mode ∧ g.source = s.timing.source ∧ g.timingState = s.timing.state ∧ g.rate = s.timing.rate ∧
      g.period = s.timing.period ∧ g.width = s.timing.width ∧ g.height = s.timing.height ∧
      g.floorMode = s.tables.active.sky.floorMode ∧ g.phiSet = s.tables.active.sky.phiSet ∧
      g.tau = s.tables.active.sky.tau ∧ g.phi = s.tables.active.sky.phi ∧
      g.commitState = s.engine.state ∧ g.last = s.engine.last ∧
      g.occupancy = s.staging.occupancy ∧ g.recordCount = s.staging.records.length ∧ g.mark = s.staging.mark ∧
      g.skyFrame = s.barrier.skyFrame ∧
      (∀ c : Channel, g.enrolled.getLsbD c.val = (s.barrier.channels[c]).enrolled ∧
        g.stalled.getLsbD c.val = (s.barrier.channels[c]).stalled ∧ g.dark.getLsbD c.val = (s.barrier.channels[c]).dark) ∧
      g.reload = s.barrier.reload ∧ g.cadence = s.barrier.cadence ∧ g.timeout = s.barrier.timeout ∧
      g.stallLimit = s.barrier.stallLimit ∧ g.lossLimit = s.barrier.lossLimit ∧ g.waitCount = s.barrier.waitCount ∧
      g.fade = s.fade) ∧
    (∀ c : Channel, u8 p 0 = c.val → ∃ r : ChannelStatus,
      exec (.readStatus l) s = .next (answered l (acceptance 0x72#8 false (.channelStatus r)) s) ∧
      (Body.channelStatus r).bytes.length = 37 ∧
      (Body.channelStatus r).bytes =
        [Wire.channel r.channel, Wire.receiver r.receiver] ++ leBytes 1 r.lossCount ++
        r.banks.flatMap (fun b => Wire.bank b.1 :: Wire.word b.2) ++
        [match r.malformed with
          | none => 0xFF#8
          | some f => Wire.flag f, Wire.output r.output] ++
        [Wire.flag r.barrier.enrolled, Wire.flag r.barrier.stalled, Wire.flag r.barrier.dark] ++
        leBytes 1 r.barrier.lateCount ++ [Wire.policy r.barrier.policy] ++
        leBytes 2 r.record.width ++ leBytes 2 r.record.height ++ leBytes 2 r.record.beta ++ leBytes 2 r.record.gainR ++
        leBytes 2 r.record.gainG ++ leBytes 2 r.record.gainB ∧
      r.channel = c ∧ r.receiver = s.receivers[c].state ∧ r.lossCount = s.receivers[c].lossCount ∧
      r.banks = s.receivers[c].banks.toList.map (fun b => (b.state, b.tag)) ∧
      ((∀ i : Fin 3, (s.receivers[c].banks[i]).state ≠ .filling) → r.malformed = none) ∧
      (ReceiverOk s.receivers[c] → ∀ i : Fin 3, (s.receivers[c].banks[i]).state = .filling →
        r.malformed = some (s.receivers[c].banks[i]).malformed) ∧
      r.output = s.timing.outputs[c] ∧ r.barrier = s.barrier.channels[c] ∧ r.record = s.tables.active.records[c]) ∧
    (12 ≤ u8 p 0 → u8 p 0 ≠ 255 → exec (.readStatus l) s = .next (answered l (refusal 0x72#8 .badField) s))

/-- READ_COUNTER is refused BAD_FIELD for a count of 0 or above 32, BAD_INDEX for a run that reaches above 156, and
NOT_PERMITTED from a tile link TLk for a run with an index outside 0 to 8, 9 + 8k to 16 + 8k and 105 + 4k to 108 + 4k, in
this order; otherwise it returns the counters of the run, and changes nothing (R207). -/
def Obligations.CountersReadBack : Prop :=
  ∀ (l : Link) (p : List Byte) (s : State), Waits l 0x73#8 p s → p.length = 3 →
    ∃ vs : List Word32,
      exec (.readCounter l) s = .next (answered l
        (if u8 p 2 = 0 ∨ 32 < u8 p 2 then refusal 0x73#8 .badField
         else if 156 < u16 p 0 + u8 p 2 - 1 then refusal 0x73#8 .badIndex
         else if l ≠ 12 ∧ ∃ j : Fin 157, u16 p 0 ≤ j.val ∧ j.val < u16 p 0 + u8 p 2 ∧
            ¬ (j.val ≤ 8 ∨ (9 + 8 * l.val ≤ j.val ∧ j.val ≤ 16 + 8 * l.val) ∨
              (105 + 4 * l.val ≤ j.val ∧ j.val ≤ 108 + 4 * l.val)) then refusal 0x73#8 .notPermitted
         else acceptance 0x73#8 false (.counters (u16 p 0) vs)) s) ∧
      vs.length = u8 p 2 ∧
      ∀ (j : Nat) (h : u16 p 0 + j < 157), j < u8 p 2 → vs[j]? = some s.counters[u16 p 0 + j]

/-! ### Links (chapter 10) -/

/-- The link receiver takes each byte of an OPEN line by its state: HUNT, HEADER, PAYLOAD and CHECK. A LENGTH above 2048
counts a framing error; a CHECK that does not match the CRC of KIND, LENGTH and PAYLOAD counts a CRC error; a complete
message joins the buffer if there is room for 3 + LENGTH bytes, and otherwise counts an overrun. Nothing else changes (ch. 10,
THE LINK RECEIVER). -/
def Obligations.LinkBytesReceived : Prop :=
  ∀ (l : Link) (b : Byte) (s : State), s.resetHeld = false → s.ports[l].line = .isOpen →
    exec (.linkByte l b) s = .next
      (let goes := fun r : Rx => withPort l { s.ports[l] with rx := r } s
       let hunts := fun n : Fin 4 => counted (Counter.ofLink l n) (goes .hunt)
       match s.ports[l].rx with
       | .hunt => goes (if b = 0xA5#8 then .header [] else .hunt)
       | .header [] => goes (.header [b])
       | .header [k] => goes (.header [k, b])
       | .header (k :: low :: _) =>
        let n := low.toNat + 256 * b.toNat
        if 2048 < n then hunts 1 else if n = 0 then goes (.check k [] none) else goes (.payload k n [])
       | .payload k n taken =>
        if taken.length + 1 < n then goes (.payload k n (taken ++ [b])) else goes (.check k (taken ++ [b]) none)
       | .check k taken none => goes (.check k taken (some b))
       | .check k taken (some low) =>
        if (crc (k :: (leBytes 2 taken.length ++ taken))).toNat ≠ low.toNat + 256 * b.toNat then hunts 0
        else if bufferRoom s.ports[l].buffer + (3 + taken.length) ≤ 4096 then
          withPort l { s.ports[l] with rx := .hunt, buffer := s.ports[l].buffer ++ [{ kind := k, payload := taken }] } s
        else hunts 2)

/-- A message sent byte by byte to an OPEN line whose receiver hunts arrives whole, whatever its KIND and payload of at most
2048 bytes: SYNC, KIND, LENGTH, PAYLOAD and CHECK as the part frames them are what the part takes (ch. 10, THE LINK and THE
LINK RECEIVER). -/
def Obligations.FramedMessageArrives : Prop :=
  ∀ (l : Link) (k : Byte) (p : List Byte) (s : State),
    s.resetHeld = false → s.ports[l].line = .isOpen → s.ports[l].rx = .hunt → p.length ≤ 2048 →
    runAll ((messageBytes k p).map (Instr.linkByte l)) s = .next
      (if bufferRoom s.ports[l].buffer + (3 + p.length) ≤ 4096 then
        withPort l { s.ports[l] with buffer := s.ports[l].buffer ++ [{ kind := k, payload := p }] } s
       else counted (Counter.ofLink l 2) s)

/-- The gap timer's expiry discards the message in reception and counts a framing error, and does nothing in HUNT. A link
break resets its own port but for the mask, the notices-lost flag and the counters, and nothing else; its end opens the line
and changes nothing else; a BROKEN line takes no bytes and sends none. The transmitter sends the head message of an OPEN
line, which leaves the queue with its last byte (ch. 10, THE LINK RECEIVER, LINK BREAK and NOTICES; the part of a message one
MESSAGE_TRANSMIT sends is the command's operand: notes/assumptions/16.md). What a message is on the line: SYNC, KIND, LENGTH,
PAYLOAD and CHECK, numbers least significant byte first; a response's header and the fields of its body, and a notice's header
and its fields, each in the order, width and code that the spec gives (ch. 10, REQUESTS, NOTICES AND THE OUTBOUND QUEUE and
MESSAGE LAYOUTS). Widths that the spec does not state, the channel repeated in a CHANNEL notice, and the presence byte of an
outcome are the model's readings (notes/assumptions/12.md, 13.md, 24.md). -/
def Obligations.LinkEvents : Prop :=
  (∀ n v : Nat, leBytes 0 v = [] ∧ leBytes (n + 1) v = BitVec.ofNat 8 v :: leBytes n (v / 256)) ∧
  (∀ r : Response, (OutMessage.response r).bytes = Wire.frame 0xC0#8
    ([r.kind, Wire.code r.code, (if r.clamped then 1#8 else 0#8) ||| (if r.isPartial then 2#8 else 0#8)] ++ r.body.bytes)) ∧
  (∀ n : Notice, (OutMessage.notice n).bytes = Wire.frame
    (match n.body.kind with
      | .release => 0xD0#8
      | .commit => 0xD1#8
      | .channel => 0xD2#8
      | .timing => 0xD3#8)
    ([Wire.flag n.lost] ++ leBytes 2 n.merged ++ [match n.channel with
      | none => 0xFF#8
      | some c => Wire.channel c] ++ n.body.bytes)) ∧
  (∀ b : Body, b.bytes = match b with
    | .empty => []
    | .staged units occupancy => leBytes 2 units ++ leBytes 2 occupancy
    | .removed count => leBytes 2 count
    | .marked count units => leBytes 2 count ++ leBytes 2 units
    | .engineBusy state link => [Wire.commit state, Wire.link link]
    | .abortedIn state => [Wire.commit state]
    | .enrollment set => Wire.channels set
    | .barrier timeout stall loss => leBytes 1 timeout ++ leBytes 1 stall ++ leBytes 1 loss
    | .cadence reload counter => leBytes 1 reload ++ leBytes 1 counter
    | .fade f => leBytes 2 f.level ++ leBytes 2 f.target ++ leBytes 2 f.remaining
    | .outputs states => states.map Wire.output
    | .timing source state period => [Wire.source source, Wire.timing state] ++ leBytes 4 period
    | .raster width height => leBytes 2 width ++ leBytes 2 height
    | .mode m => [Wire.mode m]
    | .notices m => [Wire.notices m]
    | .nodes ns => ns.flatMap fun n =>
      leBytes 2 (n.u % 65536).toNat ++ leBytes 2 (n.v % 65536).toNat ++ leBytes 2 n.baseWeight ++ [Wire.flag n.isVoid, 0#8] ++
        leBytes 2 n.weight ++ leBytes 2 n.lift ++ (match n.seamRef with
          | none => [0xFF#8, 0xFF#8]
          | some r => leBytes 1 r.seam ++ leBytes 1 r.point)
    | .seam occupancy count id m => leBytes 2 occupancy ++ leBytes 1 count ++ leBytes 1 id.val ++
      leBytes 1 m.members.length ++ m.members.map Wire.channel ++ leBytes 1 m.points.length ++
      m.points.flatMap fun q => q.flatMap fun e => leBytes 2 e.node ++ leBytes 2 e.coverage
    | .pool occupancy count => leBytes 2 occupancy ++ leBytes 1 count
    | .counters first values => leBytes 2 first ++ leBytes 1 values.length ++ values.flatMap Wire.word
    | .globalStatus g => (Body.globalStatus g).bytes
    | .channelStatus c => (Body.channelStatus c).bytes) ∧
  (∀ b : NoticeBody, b.bytes = match b with
    | .release frame forced outcome => Wire.word frame ++ [Wire.flag forced] ++ (match outcome with
      | .swapped tag => 0#8 :: Wire.tag tag
      | .heldLate => [1#8]
      | .heldStalled => [2#8])
    | .summary frame forced turned late taken =>
      Wire.word frame ++ [Wire.flag forced] ++ Wire.channels turned ++ Wire.channels late ++ [Wire.flag taken]
    | .armed link count floor => [0#8, Wire.link link] ++ leBytes 2 count ++ Wire.floor floor
    | .failed link count error item => [1#8, Wire.link link] ++ leBytes 2 count ++ [Wire.error error] ++ Wire.item item
    | .aborted link count state cause => [2#8, Wire.link link] ++ leBytes 2 count ++ [Wire.commit state] ++
      (match cause with
        | .abortCommit sender => [0#8, Wire.link sender]
        | .restart => [1#8, 0xFF#8])
    | .swapped link count frame floor => [3#8, Wire.link link] ++ leBytes 2 count ++ Wire.word frame ++ Wire.floor floor
    | .inputLost c tag held => [0#8, Wire.channel c] ++ Wire.tag tag ++ [Wire.flag held]
    | .inputRestored c tag => [1#8, Wire.channel c] ++ Wire.word tag
    | .stalled c frame policy => [2#8, Wire.channel c] ++ Wire.word frame ++ [Wire.policy policy]
    | .rejoined c tag => [3#8, Wire.channel c] ++ Wire.word tag
    | .skew c tag ref refTag frame =>
      [4#8, Wire.channel c] ++ Wire.word tag ++ [Wire.channel ref] ++ Wire.word refTag ++ Wire.word frame
    | .timing state previous source period =>
      [Wire.timing state, Wire.timing previous, Wire.source source] ++ leBytes 4 period) ∧
  (∀ (l : Link) (s : State), s.resetHeld = false → exec (.gapTimerExpiry l) s = .next
    (if s.ports[l].rx = .hunt then s
     else counted (Counter.ofLink l 1) (withPort l { s.ports[l] with rx := .hunt } s))) ∧
  (∀ (l : Link) (s : State), s.resetHeld = false → s.ports[l].line = .isOpen → exec (.linkBreak l) s = .next
    (withPort l
      { line := .broken, rx := .hunt, buffer := [], inProcess := none, outbound := [], sent := 0
        txLine := s.ports[l].txLine, mask := s.ports[l].mask, lostFlag := s.ports[l].lostFlag } s)) ∧
  (∀ (l : Link) (s : State), s.resetHeld = false → exec (.linkBreakEnd l) s = .next
    (withPort l { s.ports[l] with line := .isOpen } s)) ∧
  (∀ (l : Link) (b : Byte) (n : Nat) (s : State), s.resetHeld = false → s.ports[l].line = .broken →
    exec (.linkByte l b) s = .next s ∧ exec (.messageTransmit l n) s = .next s ∧ exec (.linkBreak l) s = .next s) ∧
  ∀ (l : Link) (n : Nat) (s : State) (m : OutMessage) (ms : List OutMessage), s.resetHeld = false → 0 < n →
    s.ports[l].line = .isOpen → s.ports[l].outbound = m :: ms → exec (.messageTransmit l n) s = .next
      (withPort l
        (if m.bytes.length ≤ s.ports[l].sent + n then
          { s.ports[l] with outbound := ms, sent := 0, txLine := (m.bytes.drop s.ports[l].sent).take n }
         else { s.ports[l] with sent := s.ports[l].sent + n, txLine := (m.bytes.drop s.ports[l].sent).take n }) s)

/-- A notice handed to a port. Not admitted by the mask: nothing. Fewer than 15 notices queued: appended with merged count 0.
Otherwise it replaces the newest queued notice of its kind and channel that is not being sent, with the merged count up by
one to at most 65535; and with none it is dropped, the notices-lost flag set and the loss counted. A notice queued carries
LOST if the flag was set, or the notice it replaced carried it, and clears the flag (ch. 10, NOTICES AND THE OUTBOUND
QUEUE). -/
def Obligations.NoticeJudged : Prop :=
  ∀ (l : Link) (b : NoticeBody) (s : State),
    let p := s.ports[l]
    let ch := noticeChannel l b
    let alike := fun n : Notice => n.body.kind = b.kind ∧ n.channel = ch
    (p.mask.admits b.kind = false → hand l b s = s) ∧
    (p.mask.admits b.kind = true → noticeCount p.outbound < 15 → 
      hand l b s = withPort l
        { p with lostFlag := false
                 outbound := p.outbound ++ [.notice { channel := ch, lost := p.lostFlag, merged := 0, body := b }] } s) ∧
    (∀ (before after : List OutMessage) (n : Notice),
      p.mask.admits b.kind = true → 15 ≤ noticeCount p.outbound → p.outbound = before ++ .notice n :: after → alike n →
      (∀ n', OutMessage.notice n' ∈ after → ¬ alike n') → (before = [] → p.sent = 0) →
      hand l b s = withPort l
        { p with lostFlag := false
                 outbound := before ++ .notice { channel := ch, lost := n.lost || p.lostFlag
                                                 merged := min 65535 (n.merged + 1), body := b } :: after } s) ∧
    (p.mask.admits b.kind = true → 15 ≤ noticeCount p.outbound →
      (∀ n, OutMessage.notice n ∈ (if 0 < p.sent then p.outbound.tail else p.outbound) → ¬ alike n) →
      hand l b s = counted (Counter.ofLink l 3) (withPort l { p with lostFlag := true } s))

/-! ### Invariants -/

/-- Every invariant of the part holds after hard reset. -/
def Obligations.InvariantsHoldAtReset : Prop :=
  PortsSound State.reset ∧ CommitSound State.reset ∧ FramesSound State.reset ∧ TimingSound State.reset ∧
    PictureSound State.reset ∧ SkyBalanced State.reset ∧ RolesKept State.reset ∧ ReleasesCounted State.reset

/-- Every step keeps every port sound: at most one response, none with a request in process, at most 15 notices, at most
4096 bytes of requests, a BROKEN line idle. -/
def Obligations.PortsStaySound : Prop :=
  ∀ s t : State, PortsSound s → step s = .next t → PortsSound t

/-- Every step keeps the queue within 8192 units and in agreement with the mark and the Commit Engine, and every record
within the role of the link it came from. -/
def Obligations.QueueStaysSound : Prop :=
  ∀ s t : State, step s = .next t → (CommitSound s → CommitSound t) ∧ (RolesKept s → RolesKept t)

/-- Every step keeps the receivers, the barrier, the timing and the fade within their ranges: exactly one bank SHOWN, one
FILLING exactly in RECEIVING, a stalled channel enrolled, FREE exactly under INTERNAL, LOCKED only with a last edge. -/
def Obligations.FramesAndTimingStaySound : Prop :=
  ∀ s t : State, step s = .next t → (FramesSound s → FramesSound t) ∧ (TimingSound s → TimingSound t)

/-- Every step keeps the tables within their ranges and in canonical form, the lifts of ACTIVE within its floor, and every
code on every pixel output at most 1023. -/
def Obligations.PictureStaysSound : Prop :=
  ∀ s t : State, PictureSound s → step s = .next t → PictureSound t

/-- Every step keeps the balance of the committed sky: in ACTIVE no node is claimed by two seam points, every member node is
non-VOID, at most 2048 points are present, and at every seam point the derived weights of the members sum to 4096 and their
lifts to what the black of the seam leaves of Φ (ch. 2, CHECKING THE REGISTRY and NORMALIZATION; ch. 3, LIFT AT A SEAM
POINT). -/
def Obligations.SkyStaysBalanced : Prop :=
  ∀ s t : State, SkyBalanced s → step s = .next t → SkyBalanced t

/-- Every step keeps the releases counter equal to the sky frame number. -/
def Obligations.ReleasesStayCounted : Prop :=
  ∀ s t : State, ReleasesCounted s → step s = .next t → ReleasesCounted t

/-- The committed sky changes at a swap and at hard reset alone, and a frame context at an output frame start, at RESTART,
which only switches its content off, and at hard reset alone (ch. 1, THE TWO BANKS; ch. 4, FRAMES). The output frame start may
be the one that SET_TIMING takes at once (ch. 9, SELECTING THE SOURCE). -/
def Obligations.CommittedSkyChangesOnlyAtASwap : Prop :=
  ∀ (i : Instr) (s t : State), exec i s = .next t → i ≠ .hardReset → i ≠ .hardResetEnd →
    ((t.tables.active = s.tables.active ∧ t.tables.activeIsB = s.tables.activeIsB) ∨
      (∃ k, SwapDue s k) ∧
        ((∃ race, FrameStartTaken s i race) ∨ ∃ taking, i = .setTiming 12 taking ∧ StartAtOnce taking.time s)) ∧
    ∀ c : Channel, t.engines[c].context = s.engines[c].context ∨ (∃ race, FrameStartTaken s i race) ∨
      (∃ taking, i = .setTiming 12 taking ∧ StartAtOnce taking.time s) ∨
      (∃ o, i = .restart 12 o) ∧
        t.engines[c].context = s.engines[c].context.map fun x => { x with contentOff := true }
end

