-- ==== Sys2Proof/Laws/State.lean ====
section
/-! SUPPORT. What each update of the state leaves alone: one lemma for each field, true by definition. -/

namespace Sys2Proof.Machine

variable (s : State)

@[simp] theorem bump_resetHeld (i : CounterIx) : (bump i s).resetHeld = s.resetHeld := rfl
@[simp] theorem bump_mode (i : CounterIx) : (bump i s).mode = s.mode := rfl
@[simp] theorem bump_tables (i : CounterIx) : (bump i s).tables = s.tables := rfl
@[simp] theorem bump_staging (i : CounterIx) : (bump i s).staging = s.staging := rfl
@[simp] theorem bump_engine (i : CounterIx) : (bump i s).engine = s.engine := rfl
@[simp] theorem bump_receivers (i : CounterIx) : (bump i s).receivers = s.receivers := rfl
@[simp] theorem bump_barrier (i : CounterIx) : (bump i s).barrier = s.barrier := rfl
@[simp] theorem bump_timing (i : CounterIx) : (bump i s).timing = s.timing := rfl
@[simp] theorem bump_fade (i : CounterIx) : (bump i s).fade = s.fade := rfl
@[simp] theorem bump_engines (i : CounterIx) : (bump i s).engines = s.engines := rfl
@[simp] theorem bump_ports (i : CounterIx) : (bump i s).ports = s.ports := rfl
@[simp] theorem bump_pending (i : CounterIx) : (bump i s).pending = s.pending := rfl

@[simp] theorem respond_resetHeld (l : Link) (r : Response) : (respond l r s).resetHeld = s.resetHeld := rfl
@[simp] theorem respond_mode (l : Link) (r : Response) : (respond l r s).mode = s.mode := rfl
@[simp] theorem respond_tables (l : Link) (r : Response) : (respond l r s).tables = s.tables := rfl
@[simp] theorem respond_staging (l : Link) (r : Response) : (respond l r s).staging = s.staging := rfl
@[simp] theorem respond_engine (l : Link) (r : Response) : (respond l r s).engine = s.engine := rfl
@[simp] theorem respond_receivers (l : Link) (r : Response) : (respond l r s).receivers = s.receivers := rfl
@[simp] theorem respond_barrier (l : Link) (r : Response) : (respond l r s).barrier = s.barrier := rfl
@[simp] theorem respond_timing (l : Link) (r : Response) : (respond l r s).timing = s.timing := rfl
@[simp] theorem respond_fade (l : Link) (r : Response) : (respond l r s).fade = s.fade := rfl
@[simp] theorem respond_engines (l : Link) (r : Response) : (respond l r s).engines = s.engines := rfl
@[simp] theorem respond_counters (l : Link) (r : Response) : (respond l r s).counters = s.counters := rfl
@[simp] theorem respond_pending (l : Link) (r : Response) : (respond l r s).pending = s.pending := rfl

@[simp] theorem refuse_resetHeld (l : Link) (k : Byte) (code : ResultCode) : (refuse l k code s).resetHeld = s.resetHeld := rfl
@[simp] theorem refuse_mode (l : Link) (k : Byte) (code : ResultCode) : (refuse l k code s).mode = s.mode := rfl
@[simp] theorem refuse_tables (l : Link) (k : Byte) (code : ResultCode) : (refuse l k code s).tables = s.tables := rfl
@[simp] theorem refuse_staging (l : Link) (k : Byte) (code : ResultCode) : (refuse l k code s).staging = s.staging := rfl
@[simp] theorem refuse_engine (l : Link) (k : Byte) (code : ResultCode) : (refuse l k code s).engine = s.engine := rfl
@[simp] theorem refuse_receivers (l : Link) (k : Byte) (code : ResultCode) : (refuse l k code s).receivers = s.receivers := rfl
@[simp] theorem refuse_barrier (l : Link) (k : Byte) (code : ResultCode) : (refuse l k code s).barrier = s.barrier := rfl
@[simp] theorem refuse_timing (l : Link) (k : Byte) (code : ResultCode) : (refuse l k code s).timing = s.timing := rfl
@[simp] theorem refuse_fade (l : Link) (k : Byte) (code : ResultCode) : (refuse l k code s).fade = s.fade := rfl
@[simp] theorem refuse_engines (l : Link) (k : Byte) (code : ResultCode) : (refuse l k code s).engines = s.engines := rfl
@[simp] theorem refuse_counters (l : Link) (k : Byte) (code : ResultCode) : (refuse l k code s).counters = s.counters := rfl
@[simp] theorem refuse_pending (l : Link) (k : Byte) (code : ResultCode) : (refuse l k code s).pending = s.pending := rfl

@[simp] theorem accept_resetHeld (l : Link) (k : Byte) (b : Body) : (accept l k b s).resetHeld = s.resetHeld := rfl
@[simp] theorem accept_mode (l : Link) (k : Byte) (b : Body) : (accept l k b s).mode = s.mode := rfl
@[simp] theorem accept_tables (l : Link) (k : Byte) (b : Body) : (accept l k b s).tables = s.tables := rfl
@[simp] theorem accept_staging (l : Link) (k : Byte) (b : Body) : (accept l k b s).staging = s.staging := rfl
@[simp] theorem accept_engine (l : Link) (k : Byte) (b : Body) : (accept l k b s).engine = s.engine := rfl
@[simp] theorem accept_receivers (l : Link) (k : Byte) (b : Body) : (accept l k b s).receivers = s.receivers := rfl
@[simp] theorem accept_barrier (l : Link) (k : Byte) (b : Body) : (accept l k b s).barrier = s.barrier := rfl
@[simp] theorem accept_timing (l : Link) (k : Byte) (b : Body) : (accept l k b s).timing = s.timing := rfl
@[simp] theorem accept_fade (l : Link) (k : Byte) (b : Body) : (accept l k b s).fade = s.fade := rfl
@[simp] theorem accept_engines (l : Link) (k : Byte) (b : Body) : (accept l k b s).engines = s.engines := rfl
@[simp] theorem accept_counters (l : Link) (k : Byte) (b : Body) : (accept l k b s).counters = s.counters := rfl
@[simp] theorem accept_pending (l : Link) (k : Byte) (b : Body) : (accept l k b s).pending = s.pending := rfl

@[simp] theorem acceptClamped_resetHeld (l : Link) (k : Byte) (cl : Bool) (b : Body) : (acceptClamped l k cl b s).resetHeld = s.resetHeld := rfl
@[simp] theorem acceptClamped_mode (l : Link) (k : Byte) (cl : Bool) (b : Body) : (acceptClamped l k cl b s).mode = s.mode := rfl
@[simp] theorem acceptClamped_tables (l : Link) (k : Byte) (cl : Bool) (b : Body) : (acceptClamped l k cl b s).tables = s.tables := rfl
@[simp] theorem acceptClamped_staging (l : Link) (k : Byte) (cl : Bool) (b : Body) : (acceptClamped l k cl b s).staging = s.staging := rfl
@[simp] theorem acceptClamped_engine (l : Link) (k : Byte) (cl : Bool) (b : Body) : (acceptClamped l k cl b s).engine = s.engine := rfl
@[simp] theorem acceptClamped_receivers (l : Link) (k : Byte) (cl : Bool) (b : Body) : (acceptClamped l k cl b s).receivers = s.receivers := rfl
@[simp] theorem acceptClamped_barrier (l : Link) (k : Byte) (cl : Bool) (b : Body) : (acceptClamped l k cl b s).barrier = s.barrier := rfl
@[simp] theorem acceptClamped_timing (l : Link) (k : Byte) (cl : Bool) (b : Body) : (acceptClamped l k cl b s).timing = s.timing := rfl
@[simp] theorem acceptClamped_fade (l : Link) (k : Byte) (cl : Bool) (b : Body) : (acceptClamped l k cl b s).fade = s.fade := rfl
@[simp] theorem acceptClamped_engines (l : Link) (k : Byte) (cl : Bool) (b : Body) : (acceptClamped l k cl b s).engines = s.engines := rfl
@[simp] theorem acceptClamped_counters (l : Link) (k : Byte) (cl : Bool) (b : Body) : (acceptClamped l k cl b s).counters = s.counters := rfl
@[simp] theorem acceptClamped_pending (l : Link) (k : Byte) (cl : Bool) (b : Body) : (acceptClamped l k cl b s).pending = s.pending := rfl

@[simp] theorem dropOldest_resetHeld (l : Link) : (dropOldest l s).resetHeld = s.resetHeld := rfl
@[simp] theorem dropOldest_mode (l : Link) : (dropOldest l s).mode = s.mode := rfl
@[simp] theorem dropOldest_tables (l : Link) : (dropOldest l s).tables = s.tables := rfl
@[simp] theorem dropOldest_staging (l : Link) : (dropOldest l s).staging = s.staging := rfl
@[simp] theorem dropOldest_engine (l : Link) : (dropOldest l s).engine = s.engine := rfl
@[simp] theorem dropOldest_receivers (l : Link) : (dropOldest l s).receivers = s.receivers := rfl
@[simp] theorem dropOldest_barrier (l : Link) : (dropOldest l s).barrier = s.barrier := rfl
@[simp] theorem dropOldest_timing (l : Link) : (dropOldest l s).timing = s.timing := rfl
@[simp] theorem dropOldest_fade (l : Link) : (dropOldest l s).fade = s.fade := rfl
@[simp] theorem dropOldest_engines (l : Link) : (dropOldest l s).engines = s.engines := rfl
@[simp] theorem dropOldest_counters (l : Link) : (dropOldest l s).counters = s.counters := rfl
@[simp] theorem dropOldest_pending (l : Link) : (dropOldest l s).pending = s.pending := rfl

@[simp] theorem present_resetHeld (l : Link) (k : Byte) (e : Edit) (cl : Bool) : (present l k e cl s).resetHeld = s.resetHeld := rfl
@[simp] theorem present_mode (l : Link) (k : Byte) (e : Edit) (cl : Bool) : (present l k e cl s).mode = s.mode := rfl
@[simp] theorem present_tables (l : Link) (k : Byte) (e : Edit) (cl : Bool) : (present l k e cl s).tables = s.tables := rfl
@[simp] theorem present_staging (l : Link) (k : Byte) (e : Edit) (cl : Bool) : (present l k e cl s).staging = s.staging := rfl
@[simp] theorem present_engine (l : Link) (k : Byte) (e : Edit) (cl : Bool) : (present l k e cl s).engine = s.engine := rfl
@[simp] theorem present_receivers (l : Link) (k : Byte) (e : Edit) (cl : Bool) : (present l k e cl s).receivers = s.receivers := rfl
@[simp] theorem present_barrier (l : Link) (k : Byte) (e : Edit) (cl : Bool) : (present l k e cl s).barrier = s.barrier := rfl
@[simp] theorem present_timing (l : Link) (k : Byte) (e : Edit) (cl : Bool) : (present l k e cl s).timing = s.timing := rfl
@[simp] theorem present_fade (l : Link) (k : Byte) (e : Edit) (cl : Bool) : (present l k e cl s).fade = s.fade := rfl
@[simp] theorem present_engines (l : Link) (k : Byte) (e : Edit) (cl : Bool) : (present l k e cl s).engines = s.engines := rfl
@[simp] theorem present_counters (l : Link) (k : Byte) (e : Edit) (cl : Bool) : (present l k e cl s).counters = s.counters := rfl
@[simp] theorem present_pending (l : Link) (k : Byte) (e : Edit) (cl : Bool) : (present l k e cl s).pending = s.pending := rfl

@[simp] theorem setRx_resetHeld (l : Link) (r : Rx) : (setRx l r s).resetHeld = s.resetHeld := rfl
@[simp] theorem setRx_mode (l : Link) (r : Rx) : (setRx l r s).mode = s.mode := rfl
@[simp] theorem setRx_tables (l : Link) (r : Rx) : (setRx l r s).tables = s.tables := rfl
@[simp] theorem setRx_staging (l : Link) (r : Rx) : (setRx l r s).staging = s.staging := rfl
@[simp] theorem setRx_engine (l : Link) (r : Rx) : (setRx l r s).engine = s.engine := rfl
@[simp] theorem setRx_receivers (l : Link) (r : Rx) : (setRx l r s).receivers = s.receivers := rfl
@[simp] theorem setRx_barrier (l : Link) (r : Rx) : (setRx l r s).barrier = s.barrier := rfl
@[simp] theorem setRx_timing (l : Link) (r : Rx) : (setRx l r s).timing = s.timing := rfl
@[simp] theorem setRx_fade (l : Link) (r : Rx) : (setRx l r s).fade = s.fade := rfl
@[simp] theorem setRx_engines (l : Link) (r : Rx) : (setRx l r s).engines = s.engines := rfl
@[simp] theorem setRx_counters (l : Link) (r : Rx) : (setRx l r s).counters = s.counters := rfl
@[simp] theorem setRx_pending (l : Link) (r : Rx) : (setRx l r s).pending = s.pending := rfl

@[simp] theorem answerBusy_resetHeld : (answerBusy s).resetHeld = s.resetHeld := rfl
@[simp] theorem answerBusy_mode : (answerBusy s).mode = s.mode := rfl
@[simp] theorem answerBusy_tables : (answerBusy s).tables = s.tables := rfl
@[simp] theorem answerBusy_staging : (answerBusy s).staging = s.staging := rfl
@[simp] theorem answerBusy_engine : (answerBusy s).engine = s.engine := rfl
@[simp] theorem answerBusy_receivers : (answerBusy s).receivers = s.receivers := rfl
@[simp] theorem answerBusy_barrier : (answerBusy s).barrier = s.barrier := rfl
@[simp] theorem answerBusy_timing : (answerBusy s).timing = s.timing := rfl
@[simp] theorem answerBusy_fade : (answerBusy s).fade = s.fade := rfl
@[simp] theorem answerBusy_engines : (answerBusy s).engines = s.engines := rfl
@[simp] theorem answerBusy_counters : (answerBusy s).counters = s.counters := rfl
@[simp] theorem answerBusy_pending : (answerBusy s).pending = s.pending := rfl

@[simp] theorem updNamed_resetHeld (m : Nat) (f : BarrierChannel → BarrierChannel) : (updNamed m f s).resetHeld = s.resetHeld := rfl
@[simp] theorem updNamed_mode (m : Nat) (f : BarrierChannel → BarrierChannel) : (updNamed m f s).mode = s.mode := rfl
@[simp] theorem updNamed_tables (m : Nat) (f : BarrierChannel → BarrierChannel) : (updNamed m f s).tables = s.tables := rfl
@[simp] theorem updNamed_staging (m : Nat) (f : BarrierChannel → BarrierChannel) : (updNamed m f s).staging = s.staging := rfl
@[simp] theorem updNamed_engine (m : Nat) (f : BarrierChannel → BarrierChannel) : (updNamed m f s).engine = s.engine := rfl
@[simp] theorem updNamed_receivers (m : Nat) (f : BarrierChannel → BarrierChannel) : (updNamed m f s).receivers = s.receivers := rfl
@[simp] theorem updNamed_timing (m : Nat) (f : BarrierChannel → BarrierChannel) : (updNamed m f s).timing = s.timing := rfl
@[simp] theorem updNamed_fade (m : Nat) (f : BarrierChannel → BarrierChannel) : (updNamed m f s).fade = s.fade := rfl
@[simp] theorem updNamed_engines (m : Nat) (f : BarrierChannel → BarrierChannel) : (updNamed m f s).engines = s.engines := rfl
@[simp] theorem updNamed_counters (m : Nat) (f : BarrierChannel → BarrierChannel) : (updNamed m f s).counters = s.counters := rfl
@[simp] theorem updNamed_ports (m : Nat) (f : BarrierChannel → BarrierChannel) : (updNamed m f s).ports = s.ports := rfl
@[simp] theorem updNamed_pending (m : Nat) (f : BarrierChannel → BarrierChannel) : (updNamed m f s).pending = s.pending := rfl

@[simp] theorem nextPhase_resetHeld (b : Bank) (st : CommitState) (c : CurrentCommit) : (nextPhase b st c s).resetHeld = s.resetHeld := rfl
@[simp] theorem nextPhase_mode (b : Bank) (st : CommitState) (c : CurrentCommit) : (nextPhase b st c s).mode = s.mode := rfl
@[simp] theorem nextPhase_staging (b : Bank) (st : CommitState) (c : CurrentCommit) : (nextPhase b st c s).staging = s.staging := rfl
@[simp] theorem nextPhase_receivers (b : Bank) (st : CommitState) (c : CurrentCommit) : (nextPhase b st c s).receivers = s.receivers := rfl
@[simp] theorem nextPhase_barrier (b : Bank) (st : CommitState) (c : CurrentCommit) : (nextPhase b st c s).barrier = s.barrier := rfl
@[simp] theorem nextPhase_timing (b : Bank) (st : CommitState) (c : CurrentCommit) : (nextPhase b st c s).timing = s.timing := rfl
@[simp] theorem nextPhase_fade (b : Bank) (st : CommitState) (c : CurrentCommit) : (nextPhase b st c s).fade = s.fade := rfl
@[simp] theorem nextPhase_engines (b : Bank) (st : CommitState) (c : CurrentCommit) : (nextPhase b st c s).engines = s.engines := rfl
@[simp] theorem nextPhase_counters (b : Bank) (st : CommitState) (c : CurrentCommit) : (nextPhase b st c s).counters = s.counters := rfl
@[simp] theorem nextPhase_ports (b : Bank) (st : CommitState) (c : CurrentCommit) : (nextPhase b st c s).ports = s.ports := rfl
@[simp] theorem nextPhase_pending (b : Bank) (st : CommitState) (c : CurrentCommit) : (nextPhase b st c s).pending = s.pending := rfl

@[simp] theorem startCommit_resetHeld (l : Link) : (startCommit l s).resetHeld = s.resetHeld := rfl
@[simp] theorem startCommit_mode (l : Link) : (startCommit l s).mode = s.mode := rfl
@[simp] theorem startCommit_receivers (l : Link) : (startCommit l s).receivers = s.receivers := rfl
@[simp] theorem startCommit_barrier (l : Link) : (startCommit l s).barrier = s.barrier := rfl
@[simp] theorem startCommit_timing (l : Link) : (startCommit l s).timing = s.timing := rfl
@[simp] theorem startCommit_fade (l : Link) : (startCommit l s).fade = s.fade := rfl
@[simp] theorem startCommit_engines (l : Link) : (startCommit l s).engines = s.engines := rfl
@[simp] theorem startCommit_counters (l : Link) : (startCommit l s).counters = s.counters := rfl
@[simp] theorem startCommit_ports (l : Link) : (startCommit l s).ports = s.ports := rfl
@[simp] theorem startCommit_pending (l : Link) : (startCommit l s).pending = s.pending := rfl

@[simp] theorem abandonCommit_resetHeld (c : CurrentCommit) : (abandonCommit c s).resetHeld = s.resetHeld := rfl
@[simp] theorem abandonCommit_mode (c : CurrentCommit) : (abandonCommit c s).mode = s.mode := rfl
@[simp] theorem abandonCommit_tables (c : CurrentCommit) : (abandonCommit c s).tables = s.tables := rfl
@[simp] theorem abandonCommit_receivers (c : CurrentCommit) : (abandonCommit c s).receivers = s.receivers := rfl
@[simp] theorem abandonCommit_barrier (c : CurrentCommit) : (abandonCommit c s).barrier = s.barrier := rfl
@[simp] theorem abandonCommit_timing (c : CurrentCommit) : (abandonCommit c s).timing = s.timing := rfl
@[simp] theorem abandonCommit_fade (c : CurrentCommit) : (abandonCommit c s).fade = s.fade := rfl
@[simp] theorem abandonCommit_engines (c : CurrentCommit) : (abandonCommit c s).engines = s.engines := rfl
@[simp] theorem abandonCommit_ports (c : CurrentCommit) : (abandonCommit c s).ports = s.ports := rfl
@[simp] theorem abandonCommit_pending (c : CurrentCommit) : (abandonCommit c s).pending = s.pending := rfl

@[simp] theorem takeSwap_resetHeld (c : CurrentCommit) (n : Word32) : (takeSwap c n s).resetHeld = s.resetHeld := rfl
@[simp] theorem takeSwap_mode (c : CurrentCommit) (n : Word32) : (takeSwap c n s).mode = s.mode := rfl
@[simp] theorem takeSwap_receivers (c : CurrentCommit) (n : Word32) : (takeSwap c n s).receivers = s.receivers := rfl
@[simp] theorem takeSwap_barrier (c : CurrentCommit) (n : Word32) : (takeSwap c n s).barrier = s.barrier := rfl
@[simp] theorem takeSwap_timing (c : CurrentCommit) (n : Word32) : (takeSwap c n s).timing = s.timing := rfl
@[simp] theorem takeSwap_fade (c : CurrentCommit) (n : Word32) : (takeSwap c n s).fade = s.fade := rfl
@[simp] theorem takeSwap_engines (c : CurrentCommit) (n : Word32) : (takeSwap c n s).engines = s.engines := rfl
@[simp] theorem takeSwap_ports (c : CurrentCommit) (n : Word32) : (takeSwap c n s).ports = s.ports := rfl
@[simp] theorem takeSwap_pending (c : CurrentCommit) (n : Word32) : (takeSwap c n s).pending = s.pending := rfl

@[simp] theorem beginFrames_resetHeld : (beginFrames s).resetHeld = s.resetHeld := rfl
@[simp] theorem beginFrames_mode : (beginFrames s).mode = s.mode := rfl
@[simp] theorem beginFrames_tables : (beginFrames s).tables = s.tables := rfl
@[simp] theorem beginFrames_staging : (beginFrames s).staging = s.staging := rfl
@[simp] theorem beginFrames_engine : (beginFrames s).engine = s.engine := rfl
@[simp] theorem beginFrames_receivers : (beginFrames s).receivers = s.receivers := rfl
@[simp] theorem beginFrames_barrier : (beginFrames s).barrier = s.barrier := rfl
@[simp] theorem beginFrames_timing : (beginFrames s).timing = s.timing := rfl
@[simp] theorem beginFrames_fade : (beginFrames s).fade = s.fade := rfl
@[simp] theorem beginFrames_counters : (beginFrames s).counters = s.counters := rfl
@[simp] theorem beginFrames_ports : (beginFrames s).ports = s.ports := rfl
@[simp] theorem beginFrames_pending : (beginFrames s).pending = s.pending := rfl

@[simp] theorem restartBlocks_resetHeld : (restartBlocks s).resetHeld = s.resetHeld := rfl
@[simp] theorem restartBlocks_tables : (restartBlocks s).tables = s.tables := rfl
@[simp] theorem restartBlocks_timing : (restartBlocks s).timing = s.timing := rfl
@[simp] theorem restartBlocks_counters : (restartBlocks s).counters = s.counters := rfl
@[simp] theorem restartBlocks_ports : (restartBlocks s).ports = s.ports := rfl
@[simp] theorem restartBlocks_pending : (restartBlocks s).pending = s.pending := rfl

end Sys2Proof.Machine
end

