-- ==== Sys2Proof/Laws/Tables.lean ====
section
/-! SUPPORT. The laws of fixed runs and of sparse tables: reading after writing, and the canonical form kept by every
write. -/

namespace Sys2Proof.Machine

/-! ### Fixed runs -/

section Runs

variable {α : Type} {n : Nat}

@[simp] theorem getElem_put (v : Vector α n) (i : Fin n) (x : α) (j : Nat) (h : j < n) :
    (put v i x)[j] = if i.val = j then x else v[j] := by
  simp only [put, Vector.getElem_set]

@[simp] theorem getElem_upd (v : Vector α n) (i : Fin n) (f : α → α) (j : Nat) (h : j < n) :
    (upd v i f)[j] = if i.val = j then f v[i] else v[j] := by simp [upd]

@[simp] theorem getElem_updAll (v : Vector α n) (f : Fin n → α → α) (j : Nat) (h : j < n) :
    (updAll v f)[j] = f ⟨j, h⟩ v[j] := by simp [updAll]

@[simp] theorem put_put (v : Vector α n) (i : Fin n) (x y : α) : put (put v i x) i y = put v i y := by
  ext j h
  simp only [put, Vector.getElem_set]
  split <;> rfl

@[simp] theorem upd_upd (v : Vector α n) (i : Fin n) (f g : α → α) : upd (upd v i f) i g = upd v i (fun x => g (f x)) := by
  simp [upd]

@[simp] theorem upd_put (v : Vector α n) (i : Fin n) (x : α) (f : α → α) : upd (put v i x) i f = put v i (f x) := by
  simp [upd]

/-- Two runs are equal when they are equal at every place. -/
theorem vector_ext {v w : Vector α n} (h : ∀ i : Fin n, v[i] = w[i]) : v = w := by
  ext j hj
  exact h ⟨j, hj⟩

end Runs

/-! ### Sparse tables -/

variable {α : Type} [DecidableEq α] (d : Nat → α)

omit [DecidableEq α] in
theorem getEntry_insert (l : List (Nat × α)) (i j : Nat) (v : α) (h : ∀ e ∈ l, e.1 ≠ i) :
    getEntry d (insertEntry i v l) j = if i = j then v else getEntry d l j := by
  induction l with
  | nil => simp [insertEntry, getEntry]
  | cons e t ih =>
    obtain ⟨k, w⟩ := e
    have hk : k ≠ i := h (k, w) (by simp)
    have ht : ∀ e ∈ t, e.1 ≠ i := fun e he => h e (by simp [he])
    simp only [insertEntry]
    split
    · simp [getEntry]
    · simp only [getEntry, ih ht]
      by_cases hkj : k = j
      · subst hkj
        simp [Ne.symm hk]
      · simp [hkj]

omit [DecidableEq α] in
theorem getEntry_erase (l : List (Nat × α)) (i j : Nat) :
    getEntry d (eraseEntry i l) j = if i = j then d j else getEntry d l j := by
  induction l with
  | nil => simp [eraseEntry, getEntry]
  | cons e t ih =>
    obtain ⟨k, w⟩ := e
    simp only [eraseEntry] at ih ⊢
    by_cases hk : k = i
    · subst hk
      simp only [List.filter, ne_eq, not_true_eq_false, decide_false, ih, getEntry]
      by_cases hj : k = j <;> simp [hj]
    · simp only [List.filter, ne_eq, hk, not_false_eq_true, decide_true, getEntry, ih]
      by_cases hj : k = j
      · subst hj
        simp [Ne.symm hk]
      · simp [hj]

omit [DecidableEq α] in
theorem erase_keys (l : List (Nat × α)) (i : Nat) : ∀ e ∈ eraseEntry i l, e.1 ≠ i := by
  intro e he
  simpa [eraseEntry] using (List.mem_filter.1 he).2

/-- Reading after writing: the value written at that address, what was there at every other. -/
@[simp] theorem Table.get_set (t : Table α) (i j : Nat) (v : α) :
    (t.set d i v).get d j = if i = j then v else t.get d j := by
  simp only [Table.set]
  split
  · rename_i h
    simp only [Table.get, getEntry_erase, h]
    by_cases hij : i = j <;> simp [hij]
  · simp only [Table.get]
    rw [getEntry_insert d _ _ _ _ (erase_keys _ _), getEntry_erase]
    by_cases hij : i = j <;> simp [hij]

omit [DecidableEq α] in
@[simp] theorem Table.get_empty (j : Nat) : (Table.empty : Table α).get d j = d j := rfl

omit [DecidableEq α] in
theorem keys_insert (l : List (Nat × α)) (i : Nat) (v : α) :
    ∀ k, k ∈ (insertEntry i v l).map Prod.fst ↔ k = i ∨ k ∈ l.map Prod.fst := by
  induction l with
  | nil => simp [insertEntry]
  | cons e t ih =>
    obtain ⟨k', w⟩ := e
    intro k
    simp only [insertEntry]
    split
    · simp
    · rw [List.map_cons, List.mem_cons, ih, List.map_cons, List.mem_cons]
      tauto

omit [DecidableEq α] in
theorem sorted_insert (l : List (Nat × α)) (i : Nat) (v : α) (h : ∀ e ∈ l, e.1 ≠ i)
    (hs : (l.map Prod.fst).Pairwise (· < ·)) : ((insertEntry i v l).map Prod.fst).Pairwise (· < ·) := by
  induction l with
  | nil => simp [insertEntry]
  | cons e t ih =>
    obtain ⟨k, w⟩ := e
    have hk : k ≠ i := h (k, w) (by simp)
    have ht : ∀ e ∈ t, e.1 ≠ i := fun e he => h e (by simp [he])
    simp only [List.map_cons, List.pairwise_cons] at hs
    simp only [insertEntry]
    split
    · rename_i hlt
      simp only [List.map_cons, List.pairwise_cons]
      refine ⟨?_, hs⟩
      intro a ha
      rcases List.mem_cons.1 ha with rfl | ha
      · exact hlt
      · exact lt_trans hlt (hs.1 a ha)
    · simp only [List.map_cons, List.pairwise_cons]
      refine ⟨?_, ih ht hs.2⟩
      intro a ha
      rcases (keys_insert t i v a).1 ha with rfl | ha
      · omega
      · exact hs.1 a ha

omit [DecidableEq α] in
theorem sorted_erase (l : List (Nat × α)) (i : Nat) (hs : (l.map Prod.fst).Pairwise (· < ·)) :
    ((eraseEntry i l).map Prod.fst).Pairwise (· < ·) :=
  hs.sublist (List.Sublist.map _ List.filter_sublist)

omit [DecidableEq α] in
theorem mem_insert (l : List (Nat × α)) (i : Nat) (v : α) (e : Nat × α) :
    e ∈ insertEntry i v l ↔ e = (i, v) ∨ e ∈ l := by
  induction l with
  | nil => simp [insertEntry]
  | cons e' t ih =>
    obtain ⟨k, w⟩ := e'
    simp only [insertEntry]
    split
    · simp
    · rw [List.mem_cons, ih, List.mem_cons]
      tauto

/-- Every write keeps the canonical form. -/
theorem Table.wf_set (t : Table α) (i : Nat) (v : α) (h : t.wf d = true) : (t.set d i v).wf d = true := by
  simp only [Table.wf, Bool.and_eq_true, decide_eq_true_eq, List.all_eq_true] at h ⊢
  obtain ⟨hs, hd⟩ := h
  simp only [Table.set]
  split
  · refine ⟨sorted_erase _ _ hs, ?_⟩
    intro e he
    exact hd e (List.mem_filter.1 he).1
  · rename_i hv
    refine ⟨sorted_insert _ _ _ (erase_keys _ _) (sorted_erase _ _ hs), ?_⟩
    intro e he
    rcases (mem_insert _ _ _ _).1 he with rfl | he
    · exact hv
    · exact hd e (List.mem_filter.1 he).1

theorem Table.wf_empty : (Table.empty : Table α).wf d = true := by simp [Table.empty, Table.wf]

/-- A run of writes keeps the canonical form. -/
theorem Table.wf_setRun (vs : List α) : ∀ (t : Table α) (start : Nat), t.wf d = true → (t.setRun d start vs).wf d = true := by
  induction vs with
  | nil => exact fun t _ h => h
  | cons v vs ih => exact fun t start h => ih _ _ (Table.wf_set d t start v h)

/-- Reading after a run of writes. -/
theorem Table.get_setRun (vs : List α) : ∀ (t : Table α) (start j : Nat),
    (t.setRun d start vs).get d j = if start ≤ j then vs.getD (j - start) (t.get d j) else t.get d j := by
  induction vs with
  | nil =>
    intro t start j
    simp [Table.setRun]
  | cons v vs ih =>
    intro t start j
    simp only [Table.setRun, ih, Table.get_set]
    by_cases h1 : start + 1 ≤ j
    · have h2 : start ≤ j := by omega
      have h3 : start ≠ j := by omega
      obtain ⟨k, hk⟩ : ∃ k, j - start = k + 1 := ⟨j - start - 1, by omega⟩
      have h4 : j - (start + 1) = k := by omega
      simp [h1, h2, h3, hk, h4]
    · by_cases h2 : start ≤ j
      · have h3 : start = j := by omega
        subst h3
        simp
      · have h3 : start ≠ j := by omega
        simp [h1, h2, h3]

/-- A change of every listed entry keeps the canonical form. -/
theorem Table.wf_mapVals (f : Nat → α → α) (t : Table α) (h : t.wf d = true) : (t.mapVals d f).wf d = true := by
  unfold Table.mapVals
  generalize t.entries.map Prod.fst = ks
  suffices ∀ acc : Table α, acc.wf d = true → (ks.foldl (fun acc k => acc.set d k (f k (t.get d k))) acc).wf d = true from
    this t h
  induction ks with
  | nil => exact fun _ h => h
  | cons k ks ih => exact fun acc ha => ih _ (Table.wf_set d acc k _ ha)

omit [DecidableEq α] in
theorem getEntry_unlisted (l : List (Nat × α)) (i : Nat) (h : i ∉ l.map Prod.fst) : getEntry d l i = d i := by
  induction l with
  | nil => rfl
  | cons e t ih =>
    obtain ⟨k, w⟩ := e
    simp only [List.map_cons, List.mem_cons, not_or] at h
    simp only [getEntry, ih h.2, if_neg (Ne.symm h.1)]

/-- Reading after a change of every listed entry, where the change keeps the default. -/
theorem Table.get_mapVals (f : Nat → α → α) (t : Table α) (j : Nat) (hf : f j (d j) = d j) :
    (t.mapVals d f).get d j = f j (t.get d j) := by
  have key : ∀ (ks : List Nat) (acc : Table α),
      (ks.foldl (fun acc k => acc.set d k (f k (t.get d k))) acc).get d j =
        if j ∈ ks then f j (t.get d j) else acc.get d j := by
    intro ks
    induction ks with
    | nil => simp
    | cons k ks ih =>
      intro acc
      simp only [List.foldl_cons, ih, Table.get_set, List.mem_cons]
      by_cases h1 : j ∈ ks
      · simp [h1]
      · by_cases h2 : j = k
        · subst h2
          simp [h1]
        · simp [h1, h2, Ne.symm h2]
  unfold Table.mapVals
  rw [key]
  split
  · rfl
  · rename_i h
    have : t.get d j = d j := getEntry_unlisted d t.entries j h
    rw [this, hf]

/-! ### Nodes of a bank -/

/-- Reading a node after writing one. -/
@[simp] theorem Bank.node_setNode (b : Bank) (c c' : Channel) (i j : Nat) (n : Node) :
    (b.setNode c i n).node c' j = if c = c' ∧ i = j then n else b.node c' j := by
  obtain ⟨c', hc⟩ := c'
  unfold Bank.setNode Bank.node
  simp only [Fin.getElem_fin, getElem_upd]
  by_cases h : c.val = c'
  · subst h
    simp [Table.get_set]
  · have : ¬ c = ⟨c', hc⟩ := fun e => h (by rw [e])
    simp [h, this]

/-- Reading a node after a change of every node that keeps the dark default. -/
theorem Bank.node_mapNodes (b : Bank) (f : Channel → Node → Node) (c : Channel) (i : Nat) (hf : f c Node.dark = Node.dark) :
    (b.mapNodes f).node c i = f c (b.node c i) := by
  unfold Bank.mapNodes Bank.node
  simp only [Fin.getElem_fin, getElem_updAll]
  exact Table.get_mapVals darkNode _ _ i hf

/-- What holds of the dark default and of every entry listed for an address holds of the node read there. -/
theorem Bank.node_of_entries {P : Node → Prop} (b : Bank) (c : Channel) (i : Nat) (hd : P Node.dark)
    (h : ∀ e ∈ b.grids[c].entries, e.1 = i → P e.2) : P (b.node c i) := by
  have key : ∀ l : List (Nat × Node), (∀ e ∈ l, e.1 = i → P e.2) → P (getEntry darkNode l i) := by
    intro l
    induction l with
    | nil => exact fun _ => hd
    | cons e t ih =>
      intro hl
      obtain ⟨k, v⟩ := e
      simp only [getEntry]
      split
      · exact hl (k, v) (by simp) ‹_›
      · exact ih fun e he => hl e (by simp [he])
  exact key _ h

/-- Writing a node keeps the canonical form. -/
theorem Bank.wf_setNode (b : Bank) (c : Channel) (i : Nat) (n : Node) (h : b.wf = true) : (b.setNode c i n).wf = true := by
  simp only [Bank.wf, Bank.setNode, Bool.and_eq_true, List.all_eq_true, Vector.mem_toList_iff] at h ⊢
  refine ⟨⟨fun g hg => ?_, h.1.2⟩, h.2⟩
  obtain ⟨j, hj, rfl⟩ := Vector.getElem_of_mem hg
  rw [getElem_upd]
  split
  · exact Table.wf_set _ _ _ _ (h.1.1 _ (Vector.getElem_mem _))
  · exact h.1.1 _ (Vector.getElem_mem _)

/-- Changing every node keeps the canonical form. -/
theorem Bank.wf_mapNodes (b : Bank) (f : Channel → Node → Node) (h : b.wf = true) : (b.mapNodes f).wf = true := by
  simp only [Bank.wf, Bank.mapNodes, Bool.and_eq_true, List.all_eq_true, Vector.mem_toList_iff] at h ⊢
  refine ⟨⟨fun g hg => ?_, h.1.2⟩, h.2⟩
  obtain ⟨j, hj, rfl⟩ := Vector.getElem_of_mem hg
  rw [getElem_updAll]
  exact Table.wf_mapVals _ _ _ (h.1.1 _ (Vector.getElem_mem _))

/-! ### Rows of a frame bank -/

/-- The pixels written to a row, as entries: addresses from `k` on, in order, none black. -/
theorem pixelEntries_sorted (ps : List Pixel) : ∀ k : Nat,
    let es := (ps.zipIdx k).filterMap fun p => if p.1 = Pixel.black then none else some (p.2, p.1)
    (es.map Prod.fst).Pairwise (· < ·) ∧ (∀ e ∈ es, k ≤ e.1 ∧ e.1 < k + ps.length ∧ e.2 ≠ Pixel.black) := by
  induction ps with
  | nil => intro k; simp
  | cons p ps ih =>
    intro k
    obtain ⟨h1, h2⟩ := ih (k + 1)
    simp only [List.zipIdx_cons, List.filterMap_cons, List.length_cons]
    split
    · refine ⟨h1, fun e he => ?_⟩
      obtain ⟨a, b, c⟩ := h2 e he
      exact ⟨by omega, by omega, c⟩
    · rename_i q hq
      split at hq
      · cases hq
      · rename_i hp
        cases hq
        refine ⟨?_, ?_⟩
        · rw [List.map_cons, List.pairwise_cons]
          refine ⟨fun a ha => ?_, h1⟩
          obtain ⟨e, he, rfl⟩ := List.mem_map.1 ha
          have := (h2 e he).1
          show k < e.1
          omega
        · intro e he
          rcases List.mem_cons.1 he with rfl | he
          · exact ⟨Nat.le_refl _, by show k < _; omega, hp⟩
          · obtain ⟨a, b, c⟩ := h2 e he
            exact ⟨by omega, by omega, c⟩

/-- A row with pixels written over its front stays in canonical form. -/
theorem rowWrite_wf (old : Row) (ps : List Pixel) (h : Table.wf blackPixel old = true) :
    Table.wf blackPixel (rowWrite old ps) = true := by
  obtain ⟨h1, h2⟩ := pixelEntries_sorted ps 0
  simp only [Table.wf, Bool.and_eq_true, decide_eq_true_eq, List.all_eq_true] at h ⊢
  unfold rowWrite
  refine ⟨?_, ?_⟩
  · rw [List.map_append, List.pairwise_append]
    refine ⟨h1, List.Pairwise.sublist (List.Sublist.map _ List.filter_sublist) h.1, ?_⟩
    intro a ha b hb
    obtain ⟨e, he, rfl⟩ := List.mem_map.1 ha
    obtain ⟨e', he', rfl⟩ := List.mem_map.1 hb
    have := (h2 e he).2.1
    have := of_decide_eq_true (List.mem_filter.1 he').2
    omega
  · intro e he
    rcases List.mem_append.1 he with he | he
    · exact (h2 e he).2.2
    · exact h.2 e (List.mem_filter.1 he).1

/-- Writing a row keeps a frame bank's canonical form. -/
theorem FrameBank.wf_writeRow (f : FrameBank) (row : Nat) (ps : List Pixel) (h : f.wf = true) :
    (f.writeRow row ps).wf = true := by
  simp only [FrameBank.wf, Bool.and_eq_true, List.all_eq_true] at h ⊢
  have hget : Table.wf blackPixel (f.rows.get blackRow row) = true := by
    have key : ∀ l : List (Nat × Row), (∀ e ∈ l, Table.wf blackPixel e.2 = true) →
        Table.wf blackPixel (getEntry blackRow l row) = true := by
      intro l
      induction l with
      | nil => exact fun _ => Table.wf_empty blackPixel
      | cons e t ih =>
        intro hl
        obtain ⟨k, v⟩ := e
        simp only [getEntry]
        split
        · exact hl (k, v) (by simp)
        · exact ih fun e he => hl e (by simp [he])
    exact key _ h.2
  refine ⟨Table.wf_set _ _ _ _ h.1, fun e he => ?_⟩
  simp only [FrameBank.writeRow, Table.set] at he
  split at he
  · exact h.2 e (List.mem_filter.1 he).1
  · rcases (mem_insert _ _ _ _).1 he with rfl | he
    · exact rowWrite_wf _ _ hget
    · exact h.2 e (List.mem_filter.1 he).1

end Sys2Proof.Machine
end

