-- ==== Sys2Proof/Laws/Ops.lean ====
section
/-! SUPPORT. What each shared operation can do, said once: taking an event, taking a request, counting, and handing
responses and notices to the ports. -/

namespace Sys2Proof.Machine

/-! ### Taking an event -/

theorem takeEvent_ready {s : State} (h : s.resetHeld = false) (act : State → State) : takeEvent s act = .next (act s) := by
  simp [takeEvent, h]

theorem takeEvent_held {s : State} (h : s.resetHeld = true) (act : State → State) : takeEvent s act = .next s := by
  simp [takeEvent, h]

/-- An event leaves the part as it is, or acts on it. -/
theorem takeEvent_cases {s t : State} {act : State → State} (h : takeEvent s act = .next t) :
    (s.resetHeld = true ∧ t = s) ∨ (s.resetHeld = false ∧ t = act s) := by
  cases hr : s.resetHeld
  · rw [takeEvent_ready hr] at h
    exact .inr ⟨rfl, by injection h with h; exact h.symm⟩
  · rw [takeEvent_held hr] at h
    exact .inl ⟨rfl, by injection h with h; exact h.symm⟩

/-! ### Taking a request -/

theorem canTake_iff (p : Port) : p.canTake = true ↔ p.inProcess = none ∧ p.outbound.all OutMessage.isNotice = true := by
  simp only [Port.canTake, Bool.and_eq_true, Option.isNone_iff_eq_none, Bool.not_eq_true', List.any_eq_false,
    List.all_eq_true, OutMessage.isNotice]
  constructor
  · rintro ⟨h1, h2⟩
    exact ⟨h1, fun m hm => by simpa using h2 m hm⟩
  · rintro ⟨h1, h2⟩
    exact ⟨h1, fun m hm => by simpa using h2 m hm⟩

theorem buffer_of_head {p : Port} {m : Message} (h : p.buffer.head? = some m) : p.buffer = m :: p.buffer.tail := by
  cases hb : p.buffer with
  | nil => simp [hb] at h
  | cons a t =>
    rw [hb] at h
    simp at h
    simp [h]

/-- A waiting request of an accepted KIND is taken and carried out. -/
theorem takeRequest_waits {l : Link} {k : Byte} {p : List Byte} {s : State} (h : Waits l k p s) {isKind : Byte → Bool}
    (hk : isKind k = true) (act : Message → State → State) :
    takeRequest l isKind act s = .next (act { kind := k, payload := p } (dropOldest l s)) := by
  obtain ⟨hr, hi, ho, hb⟩ := h
  have hc : s.ports[l].canTake = true := (canTake_iff _).2 ⟨hi, ho⟩
  rw [takeRequest, takeEvent_ready hr]
  simp only [hc, if_true]
  rw [buffer_of_head hb]
  simp only [hk, if_true]

/-- A request command changes nothing, or takes the oldest request of its link and carries it out. -/
theorem takeRequest_cases {l : Link} {isKind : Byte → Bool} {act : Message → State → State} {s t : State}
    (h : takeRequest l isKind act s = .next t) :
    t = s ∨ ∃ m : Message, s.resetHeld = false ∧ s.ports[l].inProcess = none ∧
      s.ports[l].outbound.all OutMessage.isNotice = true ∧ s.ports[l].buffer.head? = some m ∧ isKind m.kind = true ∧
      t = act m (dropOldest l s) := by
  rcases takeEvent_cases h with ⟨_, rfl⟩ | ⟨hr, ht⟩
  · exact .inl rfl
  · by_cases hc : s.ports[l].canTake = true
    · simp only [hc, if_true] at ht
      cases hb : s.ports[l].buffer with
      | nil =>
        rw [hb] at ht
        exact .inl ht
      | cons m ms =>
        simp only [hb] at ht
        by_cases hk : isKind m.kind = true
        · simp only [hk, if_true] at ht
          obtain ⟨h1, h2⟩ := (canTake_iff _).1 hc
          exact .inr ⟨m, hr, h1, h2, rfl, hk, ht⟩
        · simp only [hk] at ht
          exact .inl ht
    · simp only [hc] at ht
      exact .inl ht

/-- A port that can take no request takes none. -/
theorem takeRequest_blocked {l : Link} {isKind : Byte → Bool} {act : Message → State → State} {s : State}
    (h : s.ports[l].buffer = [] ∨ s.ports[l].canTake = false) : takeRequest l isKind act s = .next s := by
  cases hr : s.resetHeld
  · rw [takeRequest, takeEvent_ready hr]
    rcases h with h | h
    · rw [h]
      simp
    · rw [if_neg (by rw [h]; exact Bool.false_ne_true)]
  · exact takeEvent_held hr _

/-- The oldest request gone and a response handed: the port alone differs. -/
theorem respond_dropOldest (l : Link) (r : Response) (s : State) : respond l r (dropOldest l s) = answered l r s := by
  simp [respond, dropOldest, answered, upd]

theorem refuse_dropOldest (l : Link) (k : Byte) (code : ResultCode) (s : State) :
    refuse l k code (dropOldest l s) = answered l (refusal k code) s := respond_dropOldest l _ s

theorem accept_dropOldest (l : Link) (k : Byte) (b : Body) (s : State) :
    accept l k b (dropOldest l s) = answered l (acceptance k false b) s := respond_dropOldest l _ s

theorem acceptClamped_dropOldest (l : Link) (k : Byte) (cl : Bool) (b : Body) (s : State) :
    acceptClamped l k cl b (dropOldest l s) = answered l (acceptance k cl b) s := respond_dropOldest l _ s

theorem present_dropOldest (l : Link) (k : Byte) (e : Edit) (cl : Bool) (s : State) :
    present l k e cl (dropOldest l s) = presented l k e cl s := by
  simp [present, dropOldest, presented, upd]

/-! ### Counting -/

@[simp] theorem getElem_bump (i : CounterIx) (s : State) (j : Nat) (h : j < 157) :
    (bump i s).counters[j] = if i.val = j then s.counters[i] + 1 else s.counters[j] := by
  simp [bump]

/-- Counting several counters changes the counters alone. -/
theorem bumpAll_eq (is : List CounterIx) : ∀ s : State, bumpAll is s = { s with counters := (bumpAll is s).counters } := by
  induction is with
  | nil => exact fun _ => rfl
  | cons i is ih =>
    intro s
    rw [bumpAll, ih (bump i s)]
    rfl

/-! ### Handing notices -/

/-- A notice handed to a port changes its outbound queue and its notices-lost flag alone. -/
theorem Port.hand_held (p : Port) (ch : Option Channel) (b : NoticeBody) : PortHeld p (p.hand ch b).1 := by
  unfold Port.hand PortHeld
  split
  · rfl
  · split
    · rfl
    · split <;> rfl

theorem replaceLast_map {α β : Type} (p : α → Bool) (f : α → α) (g : α → Option β)
    (h : ∀ a, p a = true → g (f a) = g a) : ∀ l l' : List α, replaceLast p f l = some l' → l'.filterMap g = l.filterMap g := by
  intro l
  induction l with
  | nil => simp [replaceLast]
  | cons a as ih =>
    intro l' hl
    simp only [replaceLast] at hl
    split at hl
    · rename_i as' has
      simp only [Option.some.injEq] at hl
      subst hl
      simp [List.filterMap_cons, ih as' has]
    · split at hl
      · rename_i ha
        simp only [Option.some.injEq] at hl
        subst hl
        simp [List.filterMap_cons, h a ha]
      · cases hl

theorem replaceLast_length {α : Type} (p : α → Bool) (f : α → α) : ∀ l l' : List α, replaceLast p f l = some l' →
    l'.length = l.length := by
  intro l
  induction l with
  | nil => simp [replaceLast]
  | cons a as ih =>
    intro l' hl
    simp only [replaceLast] at hl
    split at hl
    · rename_i as' has
      simp only [Option.some.injEq] at hl
      subst hl
      simp [ih as' has]
    · split at hl
      · simp only [Option.some.injEq] at hl
        subst hl
        simp
      · cases hl

/-- Coalescing keeps the responses of the queue. -/
theorem Port.coalesce_responses {p : Port} {ch : Option Channel} {b : NoticeBody} {q : List OutMessage}
    (h : p.coalesce ch b = some q) : responsesIn q = responsesIn p.outbound := by
  have key : ∀ l l' : List OutMessage,
      replaceLast (OutMessage.matchesNotice b.kind ch) (coalesceInto ch p.lostFlag b) l = some l' →
        responsesIn l' = responsesIn l := by
    refine replaceLast_map _ _ _ ?_
    intro m hm
    cases m with
    | response r => simp [OutMessage.matchesNotice] at hm
    | notice n => rfl
  unfold Port.coalesce at h
  split at h
  · cases h
  · rename_i m ms ho
    rw [ho]
    split at h
    · simp only [Option.map_eq_some_iff] at h
      obtain ⟨l', hl, rfl⟩ := h
      simp only [responsesIn, List.filterMap_cons] at *
      rw [key ms l' hl]
    · exact key _ _ h

/-- A notice handed to a port keeps the responses of its queue. -/
theorem Port.hand_responses (p : Port) (ch : Option Channel) (b : NoticeBody) :
    responsesIn (p.hand ch b).1.outbound = responsesIn p.outbound := by
  unfold Port.hand
  split
  · rfl
  · split
    · simp [responsesIn]
    · split
      · rename_i q hq
        exact Port.coalesce_responses hq
      · rfl

/-- A notice handed changes the port of its link and the counters alone. -/
theorem hand_eq (l : Link) (b : NoticeBody) (s : State) :
    hand l b s = { s with ports := put s.ports l (s.ports[l].hand (noticeChannel l b) b).1
                          counters := (hand l b s).counters } := by
  unfold hand
  dsimp only
  split <;> rfl

/-- Notices handed change the ports and the counters alone. -/
theorem handAll_eq (ns : List (Link × NoticeBody)) : ∀ s : State,
    handAll ns s = { s with ports := (handAll ns s).ports, counters := (handAll ns s).counters } := by
  induction ns with
  | nil => exact fun _ => rfl
  | cons n ns ih =>
    intro s
    rw [handAll, ih (hand n.1 n.2 s), hand_eq]

/-- Notices handed change no port but in its outbound queue and its notices-lost flag. -/
theorem handAll_held (ns : List (Link × NoticeBody)) : ∀ (s : State) (l : Link),
    PortHeld s.ports[l] (handAll ns s).ports[l] := by
  induction ns with
  | nil => exact fun _ _ => rfl
  | cons n ns ih =>
    intro s l
    have h1 : PortHeld s.ports[l] (hand n.1 n.2 s).ports[l] := by
      rw [hand_eq]
      simp only [Fin.getElem_fin, getElem_put]
      split
      · rename_i h
        have : n.1 = l := Fin.ext h
        subst this
        exact Port.hand_held _ _ _
      · rfl
    have h2 := ih (hand n.1 n.2 s) l
    rw [handAll]
    unfold PortHeld at *
    rw [h2, h1]

/-- A notice handed to one link leaves the port of every other as it is. -/
theorem hand_other {m l : Link} (h : m ≠ l) (b : NoticeBody) (s : State) : (hand m b s).ports[l] = s.ports[l] := by
  rw [hand_eq]
  simp only [Fin.getElem_fin, getElem_put]
  rw [if_neg fun e => h (Fin.ext e)]

/-- What a notice does to a port depends on that port alone. -/
theorem hand_ports_congr (m l : Link) (b : NoticeBody) {s s' : State} (h : s.ports[l] = s'.ports[l]) :
    (hand m b s).ports[l] = (hand m b s').ports[l] := by
  by_cases e : m = l
  · subst e
    rw [hand_eq m b s, hand_eq m b s']
    simp only [Fin.getElem_fin, getElem_put, if_true]
    exact congrArg (fun p : Port => (p.hand (noticeChannel m b) b).1) h
  · rw [hand_other e, hand_other e, h]

/-- A port is left as the notices of its own link leave it: the others do not touch it. -/
theorem handAll_port (l : Link) (ns : List (Link × NoticeBody)) : ∀ s s' : State, s.ports[l] = s'.ports[l] →
    (handAll ns s).ports[l] = (handAll (ns.filter fun n => decide (n.1 = l)) s').ports[l] := by
  induction ns with
  | nil => exact fun _ _ h => h
  | cons n ns ih =>
    intro s s' h
    by_cases e : n.1 = l
    · rw [List.filter_cons_of_pos (by simpa using e)]
      exact ih _ _ (hand_ports_congr n.1 l n.2 h)
    · rw [List.filter_cons_of_neg (by simpa using e)]
      exact ih _ _ ((hand_other e n.2 s).trans h)

/-- Notices handed keep the responses of every queue. -/
theorem handAll_responses (ns : List (Link × NoticeBody)) : ∀ (s : State) (l : Link),
    responsesIn (handAll ns s).ports[l].outbound = responsesIn s.ports[l].outbound := by
  induction ns with
  | nil => exact fun _ _ => rfl
  | cons n ns ih =>
    intro s l
    rw [handAll, ih, hand_eq]
    simp only [Fin.getElem_fin, getElem_put]
    split
    · rename_i h
      have : n.1 = l := Fin.ext h
      subst this
      exact Port.hand_responses _ _ _
    · rfl

/-- Notices handed count lost notices alone. -/
theorem handAll_counters (ns : List (Link × NoticeBody)) (n : CounterIx) (h : ∀ l : Link, n ≠ Counter.ofLink l 3) :
    ∀ s : State, (handAll ns s).counters[n] = s.counters[n] := by
  induction ns with
  | nil => exact fun _ => rfl
  | cons m ns ih =>
    intro s
    rw [handAll, ih]
    unfold hand
    dsimp only
    split
    · have := h m.1
      simp only [Fin.getElem_fin, getElem_bump]
      rw [if_neg (fun hh => this (Fin.ext hh.symm))]
    · rfl

end Sys2Proof.Machine
end

