-- ==== Sys2Proof/Laws/FrameStart.lean ====
section
/-! SUPPORT. What an output frame start leaves in each part of the state, field by field, and when each command of the
opcode table takes one. -/

namespace Sys2Proof.Machine

variable (race : FrameRace) (s : State)

/-- An output frame start is what the blocks and the frame contexts make of the state; beyond that it changes counters and
ports alone. -/
theorem frameStart_eq : frameStart race s =
    { beginFrames (blocksAfter (decision s) (receiverTurns race (decision s) s) s) with
      counters := (frameStart race s).counters, ports := (frameStart race s).ports } := by
  have h1 := handAll_eq (frameNotices race (decision s) (receiverTurns race (decision s) s) s)
    (beginFrames (bumpAll (frameCounts (decision s) (receiverTurns race (decision s) s) s)
      (blocksAfter (decision s) (receiverTurns race (decision s) s) s)))
  have h2 := bumpAll_eq (frameCounts (decision s) (receiverTurns race (decision s) s) s)
    (blocksAfter (decision s) (receiverTurns race (decision s) s) s)
  unfold frameStart
  rw [h1, h2]
  rfl

theorem frameStart_fade : (frameStart race s).fade = s.fade.step := by rw [frameStart_eq]; rfl

theorem frameStart_barrier :
    (frameStart race s).barrier = barrierAfter (decision s) (receiverTurns race (decision s) s) s := by
  rw [frameStart_eq]; rfl

theorem frameStart_receivers (c : Channel) :
    (frameStart race s).receivers[c] = ((receiverTurns race (decision s) s)[c]).receiver := by
  rw [frameStart_eq]; simp [beginFrames, blocksAfter]

theorem frameStart_timing : (frameStart race s).timing =
    { s.timing with outputs := updAll s.timing.outputs fun _ o => o.advance } := by
  rw [frameStart_eq]; rfl

theorem swapAt_tables (d : Decision) : (swapAt d s).tables = match swapTaken d s with
    | none => s.tables
    | some _ => s.tables.swap := by
  unfold swapAt
  split <;> simp_all [takeSwap, bump]

theorem frameStart_tables : (frameStart race s).tables = (swapAt (decision s) s).tables := by rw [frameStart_eq]; rfl

theorem frameStart_staging : (frameStart race s).staging = (swapAt (decision s) s).staging := by rw [frameStart_eq]; rfl

theorem frameStart_engine : (frameStart race s).engine = (swapAt (decision s) s).engine := by rw [frameStart_eq]; rfl

/-- Nothing of a port changes but its outbound queue and its notices-lost flag. -/
theorem frameStart_ports (l : Link) : PortHeld s.ports[l] (frameStart race s).ports[l] := by
  have h := handAll_held (frameNotices race (decision s) (receiverTurns race (decision s) s) s)
    (beginFrames (bumpAll (frameCounts (decision s) (receiverTurns race (decision s) s) s)
      (blocksAfter (decision s) (receiverTurns race (decision s) s) s))) l
  have hp : (beginFrames (bumpAll (frameCounts (decision s) (receiverTurns race (decision s) s) s)
      (blocksAfter (decision s) (receiverTurns race (decision s) s) s))).ports = s.ports := by
    rw [bumpAll_eq]
    simp only [beginFrames, blocksAfter, swapAt]
    split <;> rfl
  rw [hp] at h
  exact h

/-- Ordering the emissions keeps them all. -/
theorem orderEmissions_perm (ks : List NoticeKey) : ∀ es : List Emission, (orderEmissions ks es).Perm es := by
  induction ks with
  | nil => exact fun _ => .rfl
  | cons k ks ih =>
    intro es
    unfold orderEmissions
    split
    · refine ((ih _).append_left _).trans ?_
      simpa using List.filter_append_perm (fun e => decide (e.key = k)) es
    · exact ih es

/-- What is handed to a port is what the emissions have for it. -/
theorem mem_noticesAt (es : List Emission) (l : Link) (n : Link × NoticeBody) :
    n ∈ noticesAt race es l ↔ n.1 = l ∧ ∃ e ∈ es, n ∈ e.hands := by
  simp only [noticesAt, List.mem_filter, List.mem_flatMap, decide_eq_true_eq, (orderEmissions_perm _ es).mem_iff]
  exact and_comm

/-- Of a run over all links, one link's part. -/
theorem flatMap_links {α : Type} (f : Link → List α) (l : Link) :
    (links.flatMap fun m => if m = l then f m else []) = f l := by
  have key : ∀ ls : List Link, ls.Nodup → l ∈ ls → (ls.flatMap fun m => if m = l then f m else []) = f l := by
    intro ls
    induction ls with
    | nil => exact fun _ h => absurd h List.not_mem_nil
    | cons m ms ih =>
      intro hn hl
      rw [List.flatMap_cons]
      by_cases e : m = l
      · subst e
        rw [if_pos rfl, List.flatMap_eq_nil_iff.2, List.append_nil]
        exact fun m' hm' => if_neg fun (e : m' = m) => (List.nodup_cons.1 hn).1 (e ▸ hm')
      · rw [if_neg e, List.nil_append]
        exact ih (List.nodup_cons.1 hn).2 ((List.mem_cons.1 hl).resolve_left fun h => e h.symm)
  exact key links (by decide) ((by decide : ∀ l : Link, l ∈ links) l)

/-- The notices of a frame start that one link is handed are those ordered for its port. -/
theorem frameNotices_filter (d : Decision) (turns : Vector Turning 12) (l : Link) :
    (frameNotices race d turns s).filter (fun n => decide (n.1 = l)) = noticesAt race (frameEmissions d turns s) l := by
  have hf : ∀ m : Link, (noticesAt race (frameEmissions d turns s) m).filter (fun n => decide (n.1 = l)) =
      if m = l then noticesAt race (frameEmissions d turns s) m else [] := by
    intro m
    split
    · rename_i h
      refine List.filter_eq_self.2 fun n hn => ?_
      simpa [h] using ((mem_noticesAt race _ m n).1 hn).1
    · rename_i h
      refine List.filter_eq_nil_iff.2 fun n hn => ?_
      simpa [((mem_noticesAt race _ m n).1 hn).1] using h
  rw [frameNotices, List.filter_flatMap]
  simp only [hf]
  exact flatMap_links _ l

/-- A frame start leaves a port as the notices of its own link, handed in their order, leave it. -/
theorem frameStart_port (l : Link) : (frameStart race s).ports[l] =
    (handAll (noticesAt race (frameEmissions (decision s) (receiverTurns race (decision s) s) s) l) s).ports[l] := by
  unfold frameStart
  dsimp only
  rw [handAll_port l _ _ s ?_, frameNotices_filter]
  rw [bumpAll_eq]
  show ((swapAt (decision s) s).ports[l]) = _
  unfold swapAt
  split <;> rfl

/-- A generator that comes to a frame start of its own changes only times and the substituted flag. -/
theorem periodElapsed_eq {s s' : State} (h : periodElapsed s = some s') : s.timing.state ≠ .locked ∧
    s' = { s with timing := { s.timing with
      clock := max s.timing.clock (s.timing.lastFrameStart + s.timing.period)
      lastFrameStart := max s.timing.clock (s.timing.lastFrameStart + s.timing.period) } } := by
  unfold periodElapsed at h
  split at h
  · cases h
  · exact ⟨‹_›, by simpa using h.symm⟩

theorem substituteDue_eq {s s' : State} (h : substituteDue s = some s') :
    s.timing.state = .locked ∧ s.timing.substituted = false ∧ ∃ e, s.timing.lastEdge = some e ∧
      s' = { s with timing := { s.timing with
        clock := max s.timing.clock (e + s.timing.period + s.timing.period / 256)
        lastFrameStart := max s.timing.clock (e + s.timing.period + s.timing.period / 256), substituted := true } } := by
  unfold substituteDue at h
  split at h
  · rename_i hl
    split at h
    · cases h
    · rename_i e he
      exact ⟨hl.1, hl.2, e, he, by simpa using h.symm⟩
  · cases h

end Sys2Proof.Machine
end

