-- ==== Sys2Proof/Laws/Receivers.lean ====
section
/-! SUPPORT. What the shared operations on frame banks and on the seam walk can do, said once. -/

namespace Sys2Proof.Machine

/-- The bank found is in the state, and no lower-numbered one is. -/
theorem Receiver.bankIn_some {r : Receiver} {st : BankState} {i : Fin 3} (h : r.bankIn st = some i) :
    r.banks[i].state = st ∧ ∀ j : Fin 3, j.val < i.val → r.banks[j].state ≠ st := by
  simp only [Receiver.bankIn, List.find?_cons, List.find?_nil] at h
  split at h
  · rename_i h0
    cases h
    exact ⟨of_decide_eq_true h0, fun j hj => absurd hj (Nat.not_lt_zero _)⟩
  · rename_i h0
    split at h
    · rename_i h1
      cases h
      refine ⟨of_decide_eq_true h1, fun j hj => ?_⟩
      have : j = 0 := Fin.ext (by have : (1 : Fin 3).val = 1 := rfl; have : (0 : Fin 3).val = 0 := rfl; omega)
      subst this
      exact of_decide_eq_false h0
    · rename_i h1
      split at h
      · rename_i h2
        cases h
        refine ⟨of_decide_eq_true h2, fun j hj => ?_⟩
        rcases (by omega : j.val = 0 ∨ j.val = 1 ∨ 2 ≤ j.val) with e | e | e
        · have : j = 0 := Fin.ext e
          subst this
          exact of_decide_eq_false h0
        · have : j = 1 := Fin.ext e
          subst this
          exact of_decide_eq_false h1
        · have : (2 : Fin 3).val = 2 := rfl
          omega
      · cases h

/-- No bank is in the state if none is found. -/
theorem Receiver.bankIn_none {r : Receiver} {st : BankState} (h : r.bankIn st = none) (i : Fin 3) : r.banks[i].state ≠ st := by
  have h' := List.find?_eq_none.1 h i (by rcases i with ⟨i, hi⟩; interval_cases i <;> simp)
  simpa using h'

/-- Some bank is in the state exactly where one is found. -/
theorem Receiver.bankIn_isSome (r : Receiver) (st : BankState) :
    (r.bankIn st).isSome = true ↔ ∃ i : Fin 3, r.banks[i].state = st := by
  constructor
  · intro h
    obtain ⟨i, hi⟩ := Option.isSome_iff_exists.1 h
    exact ⟨i, (Receiver.bankIn_some hi).1⟩
  · rintro ⟨i, hi⟩
    cases h : r.bankIn st with
    | none => exact absurd hi (Receiver.bankIn_none h i)
    | some _ => rfl

/-- Freeing a bank changes the banks alone. -/
theorem Receiver.freeBankIn_eq (r : Receiver) (st : BankState) :
    r.freeBankIn st = { r with banks := (r.freeBankIn st).banks } := by
  unfold Receiver.freeBankIn
  split <;> rfl

/-- A walk that ends in success has met non-VOID nodes without a reference, all different. -/
theorem walkClaims_success : ∀ (qs : List Claim) (b : Bank), (walkClaims qs b).2 = none →
    (qs.map fun q => (q.channel, q.node)).Nodup ∧
      (∀ q ∈ qs, (b.node q.channel q.node).isVoid = false ∧ (b.node q.channel q.node).seamRef = none ∧
        ((walkClaims qs b).1.node q.channel q.node) = { b.node q.channel q.node with seamRef := some q.ref }) ∧
      ∀ (c : Channel) (i : Nat), (∀ q ∈ qs, ¬ (q.channel = c ∧ q.node = i)) → (walkClaims qs b).1.node c i = b.node c i := by
  intro qs
  induction qs with
  | nil => intro b _; simp [walkClaims]
  | cons q qs ih =>
    intro b h
    simp only [walkClaims] at h ⊢
    split at h
    · cases h
    · rename_i hv
      split at h
      · cases h
      · rename_i hr
        rw [if_neg hv, if_neg hr]
        have hv' : (b.node q.channel q.node).isVoid = false := by simpa using hv
        have hr' : (b.node q.channel q.node).seamRef = none := by simpa using hr
        obtain ⟨hn, hc, ho⟩ := ih _ h
        have hne : ∀ q' ∈ qs, ¬ (q.channel = q'.channel ∧ q.node = q'.node) := by
          intro q' hq' e
          have := (hc q' hq').2.1
          rw [Bank.node_setNode, if_pos e] at this
          cases this
        refine ⟨?_, ?_, ?_⟩
        · rw [List.map_cons, List.nodup_cons]
          refine ⟨?_, hn⟩
          rw [List.mem_map]
          rintro ⟨q', hq', e⟩
          exact hne q' hq' ⟨(congrArg Prod.fst e).symm, (congrArg Prod.snd e).symm⟩
        · intro q' hq'
          rcases List.mem_cons.1 hq' with rfl | hq'
          · refine ⟨hv', hr', ?_⟩
            rw [ho _ _ fun q'' h'' e => hne q'' h'' ⟨e.1.symm, e.2.symm⟩, Bank.node_setNode, if_pos ⟨rfl, rfl⟩]
          · have := hc q' hq'
            rw [Bank.node_setNode, if_neg (hne q' hq')] at this
            exact this
        · intro c i hci
          rw [ho c i fun q' hq' => hci q' (List.mem_cons_of_mem _ hq'), Bank.node_setNode,
            if_neg (fun e => hci q (List.mem_cons_self ..) e)]

end Sys2Proof.Machine
end

