-- ==== Sys2Proof/WellFormed.lean ====
section
/-! DEFINITION. Which commands are well formed. Links, channels, tags, bytes and codes carry their bounds in their
types; what is left is checked here. The machine gives an ill-formed command a meaning too. -/

namespace Sys2Proof

/-- A race names each emission at most once for each port. -/
def FrameRace.wellFormed (r : FrameRace) : Bool := r.notices.toList.all fun ks => decide ks.Nodup

/-- A line is a run of at least one pixel (R114 gives no minimum: DESIGN CHOICE, safe: notes/assumptions/30.md), a transmission
is of at least one byte (R196), and a race is well formed. -/
def Instr.wellFormed : Instr → Bool
  | .outputFrameStart r | .eligibleFrameStart r | .forcedRelease r | .stall _ r | .inputLost _ r | .refEdge _ r
  | .substituteFrameStart r => r.wellFormed
  | .setTiming _ k => k.race.wellFormed
  | .line _ ps => !ps.isEmpty
  | .messageTransmit _ n => decide (0 < n)
  | .stageNodes _ | .stageSeam _ | .dropSeam _ | .stageChannel _ | .stageFloor _ | .stageLut _ | .discard _ | .commit _
  | .abortCommit _ _ | .enroll _ | .withdraw _ | .setBarrier _ | .setCadence _ | .fade _ | .outputOn _ | .outputOff _
  | .setRaster _ | .setMode _ | .restart _ _ | .setNotices _ | .readNodes _ | .readSeam _
  | .readStatus _ | .readCounter _ | .unknownKind _ | .stagingTurn | .applyingCompletes | .checkingCompletes
  | .normalizingCompletes | .flooringCompletes | .liftingCompletes | .pixelDelivery _ | .frameHeader _ _ | .frameEnd _
  | .holdoverEntry | .linkByte _ _ | .gapTimerExpiry _ | .linkBreak _ | .linkBreakEnd _ | .hardReset
  | .hardResetEnd => true

end Sys2Proof
end

