-- ==== Sys2Proof/Tests/Slice0.lean ====
section
/-! SUPPORT. Tests of the model. Expected values come from the worked examples and tables of spec/, named beside each test.
The witnesses show, for every statement with hypotheses, a state and operands that meet them. -/

namespace Sys2Proof.Tests

open Sys2Proof Sys2Proof.Machine

-- Many small kernel evaluations at once would each hold a thread.
set_option Elab.async false

/-! ### Small states -/

/-- The part as hard reset leaves it. -/
abbrev R : State := State.reset

/-- What a command leaves. -/
def after (i : Instr) (s : State) : State := match exec i s with
  | .next t => t
  | .fault _ => s
  | .refused _ => s

/-- One request waits in the receive buffer of a link. -/
def asks (l : Link) (k : Byte) (p : List Byte) (s : State) : State :=
  { s with ports := upd s.ports l fun q => { q with buffer := [{ kind := k, payload := p }] } }

/-- A request waits on a link of the part as hard reset leaves it. -/
abbrev Asked (l : Link) (k : Byte) (p : List Byte) : Prop := Waits l k p (asks l k p R)

/-- The response queued on a link. -/
def reply (l : Link) (s : State) : Option Response := (responsesIn s.ports[l].outbound).head?

/-- The result code of the response queued on a link. -/
def code (l : Link) (s : State) : Option ResultCode := (reply l s).map Response.code

/-- The body of the response queued on a link. -/
def body (l : Link) (s : State) : Option Body := (reply l s).map Response.body

/-- The record a link presents. -/
def presents (l : Link) (s : State) : Option Edit := s.ports[l].inProcess.map fun q => q.record.edit

/-- SHOW mode. -/
def inShow (s : State) : State := { s with mode := .showing }

/-- In every receiver the loss count step, then promotion, then the raster change; notices in the default order. -/
def race : FrameRace :=
  { receivers := Vector.replicate 12 .lossPromoteRaster, together := Vector.replicate 12 false
    notices := Vector.replicate 13 [] }

/-- The same with the raster change first in every receiver. -/
def rasterFirst : FrameRace := { race with receivers := Vector.replicate 12 .rasterLossPromote }

/-- A SET_TIMING taken at a time, its response before its notice. -/
def takenAt (time : Nat) : TimingTaking := { time := time, order := .responseFirst, race := race }

/-- A node that is not VOID. -/
def lit : Node := { Node.dark with isVoid := false }

/-- A bank with one seam: channels 0 and 1, one point, at node `lit` 0 of each, with two coverages. -/
def seamBank (n0 n1 : Node) (r0 r1 : Nat) : Bank :=
  { Bank.dark with
    grids := put (put Bank.dark.grids 0 ⟨[(0, n0)]⟩) 1 ⟨[(0, n1)]⟩
    seams := put Bank.dark.seams 0
      (some { members := [0, 1], points := [[{ node := 0, coverage := r0 }, { node := 0, coverage := r1 }]] }) }

/-- A record in the queue: β of channel 1 to 180. -/
def betaRecord : EditRecord :=
  { origin := 1, edit := .channel 1 { raster := false, beta := true, gains := false } { ChannelRecord.dark with beta := 180 } }

/-- The current commit of the states below. -/
def commitOf (l : Link) (leads : List Lead) : CurrentCommit :=
  { link := l, count := 1, units := 2, leads := leads, phi := 0, floorClamped := false, shortfall := 0 }

/-- A commit of one marked record is in flight or armed. -/
def inPhase (st : CommitState) (k : CurrentCommit) (b : Bank) : State :=
  { R with
    tables := { R.tables with bankB := b }
    staging := { records := [betaRecord], mark := some { count := 1, units := 2 }, pointer := 0 }
    engine := { state := st, current := some k, last := LastResult.reset } }

/-- Channel `c` is enrolled. -/
def enrolled (c : Channel) (s : State) : State :=
  { s with barrier := { s.barrier with channels := upd s.barrier.channels c fun b => { b with enrolled := true } } }

/-- Channel `c` holds a READY bank with a tag. -/
def readyWith (c : Channel) (tag : Word32) (s : State) : State :=
  { s with receivers := upd s.receivers c fun r =>
      { r with banks := upd r.banks 1 fun b => { b with state := .ready, tag := tag } } }

/-- Channel `c` is receiving a frame into bank 1 after some lines. -/
def receiving (c : Channel) (lines : Nat) (s : State) : State :=
  { s with receivers := upd s.receivers c fun r =>
      { r with state := .receiving, lineCount := lines, banks := upd r.banks 1 fun b => { b with state := .filling, tag := 502 } } }

/-- The input of channel `c` runs, with a loss count. -/
def idleInput (c : Channel) (loss : Nat) (s : State) : State :=
  { s with receivers := upd s.receivers c fun r => { r with state := .idle, lossCount := loss } }

/-- The barrier has other settings. -/
def withBarrier (f : Barrier → Barrier) (s : State) : State := { s with barrier := f s.barrier }

/-- The timing has other values. -/
def withTiming (f : Timing → Timing) (s : State) : State := { s with timing := f s.timing }

/-- Locked to house sync at the period of chapter 9, the last edge at time 100000000. -/
def locked : State := withTiming (fun t => { t with
  source := .external, state := .locked, period := 16683348, lastEdge := some 100000000, clock := 100000000 }) R

/-- A line is BROKEN. -/
def brokenLine (l : Link) (s : State) : State := { s with ports := upd s.ports l Port.broken }

/-- Some messages are queued on a link. -/
def queued (l : Link) (q : List OutMessage) (s : State) : State :=
  { s with ports := upd s.ports l fun p => { p with outbound := q } }

/-- A summary notice of SL for a release. -/
def summaryOf (frame : Word32) : Notice :=
  { channel := none, lost := false, merged := 0, body := .summary frame false 0 0 false }

/-! ### Well-formedness -/

/-- A race that names one emission twice for one port is ill-formed. -/
theorem test_wellFormed_race :
    let named := fun ks : List NoticeKey => { race with notices := put race.notices 3 ks }
    Instr.wellFormed (.outputFrameStart (named [.swapped, .swapped])) = false ∧
      Instr.wellFormed (.setTiming 12 { takenAt 0 with race := named [.release, .release] }) = false ∧
      Instr.wellFormed (.outputFrameStart (named [.swapped, .release])) = true := by decide

/-- An empty line is ill-formed. -/
theorem test_wellFormed_line : Instr.wellFormed (.line 0 []) = false ∧ Instr.wellFormed (.line 0 [Pixel.black]) = true := by
  decide

/-- A transmission of no byte is ill-formed. -/
theorem test_wellFormed_transmit :
    Instr.wellFormed (.messageTransmit 0 0) = false ∧ Instr.wellFormed (.messageTransmit 0 1) = true := by decide

/-! ### Bytes, CRC, shares, lifts and pixels -/

/-- R180: the nine bytes 31h to 39h give 29B1h. -/
theorem test_crc_check_value :
    crc [0x31#8, 0x32#8, 0x33#8, 0x34#8, 0x35#8, 0x36#8, 0x37#8, 0x38#8, 0x39#8] = 0x29B1#16 := by decide +kernel

/-- Ch. 2, WORKED NORMALIZATIONS, cases 1, 2 and 3. -/
theorem test_finalShares_flush :
    finalShares 64 [30000, 10000, 500] = [3085, 1011, 0] ∧ finalShares 0 [30000, 10000, 500] = [3035, 1011, 50] ∧
      finalShares 64 [20000, 20000, 15000, 100] = [1495, 1486, 1115, 0] := by decide +kernel

/-- Ch. 2, WORKED NORMALIZATIONS, cases 4, 5 and 6. -/
theorem test_finalShares_corners :
    finalShares 64 [65535, 0] = [4096, 0] ∧ finalShares 64 [0, 65535, 65535] = [0, 2048, 2048] ∧
      finalShares 0 [1, 1, 1] = [1366, 1365, 1365] := by decide +kernel

/-- Ch. 3, WORKED LIFT CASES 1 to 4. -/
theorem test_liftShares :
    liftShares 210 3 0 = [70, 70, 70] ∧ liftShares 211 3 0 = [71, 70, 70] ∧ liftShares 7 4 2 = [1, 1, 4, 1] ∧
      liftShares 2 3 1 = [0, 2, 0] := by decide +kernel

/-- Ch. 4, WORKED PIXEL 4: o and code of the three members. -/
theorem test_threeProjectors :
    (linearOut 40000 3085 4096 4096 71 64934, encodeThrough outputDefault 29921) = (29921, 468) ∧
      (linearOut 40000 1011 4096 4096 70 64934, encodeThrough outputDefault 9852) = (9852, 154) ∧
      (linearOut 40000 0 4096 4096 70 64934, encodeThrough outputDefault 70) = (70, 1) := by decide +kernel

/-- Ch. 4, WORKED PIXELS 3: the left edge inside a cell. -/
theorem test_leftEdge :
    let q : Corners Int := { q00 := -1, q10 := 0, q01 := -1, q11 := 0 }
    [0, 31, 32, 63].map (fun a => interpolate a 0 q) = [-1, -1, 0, 0] := by decide +kernel

/-- Ch. 4, WORKED PIXEL 2: the interpolated position, the blend and the scaling. -/
theorem test_betweenPixels :
    interpolate 330 197 { q00 := 8000, q10 := 9000, q01 := 8000, q11 := 9000 } = 8156 ∧
      interpolate 330 197 { q00 := 4000, q10 := 4000, q01 := 5000, q11 := 5000 } = 4078 ∧
      blend 12 14 { q00 := inputDefault 400, q10 := inputDefault 420, q01 := inputDefault 410, q11 := inputDefault 440 }
        = 27566 ∧
      linearOut 27566 4096 3900 2730 299 65145 = 17689 ∧ encodeThrough outputDefault 17689 = 276 := by decide +kernel

/-! ### Staging requests -/

/-- Channel 3, start 500, count 1, mask position, U = 14424, V = 9590 (ch. 1, WORKED SEQUENCE). -/
def moveNode : List Byte := [3, 0xF4, 1, 1, 1, 0x58, 0x38, 0x76, 0x25, 0, 0, 0, 0]

/-- The record presented carries U and V of ch. 1's worked sequence. -/
theorem test_stageNodes_presents :
    presents 3 (after (.stageNodes 3) (asks 3 0x20 moveNode R)) =
      some (.nodes 3 500 { position := true, isVoid := false, baseWeight := false }
        [{ u := 14424, v := 9590, isVoid := false, baseWeight := 0 }]) := by decide +kernel

/-- R193: count 0 is BAD_FIELD before a start past the grid is BAD_INDEX, and that before a foreign channel. -/
theorem test_stageNodes_checkOrder :
    code 4 (after (.stageNodes 4) (asks 4 0x20 [3, 0x2A, 4, 0, 1] R)) = some .badField ∧
      code 4 (after (.stageNodes 4) (asks 4 0x20 [3, 0x2A, 4, 1, 1, 0, 0, 0, 0, 0, 0, 0, 0] R)) = some .badIndex ∧
      code 4 (after (.stageNodes 4) (asks 4 0x20 moveNode R)) = some .notPermitted := by decide +kernel

/-- S9 of ch. 2's worked sequence: id 9, members 2 and 3, one point (81, 50000), (7, 50000). -/
def seamNine : List Byte := [9, 2, 1, 2, 3, 81, 0, 0x50, 0xC3, 7, 0, 0x50, 0xC3]

theorem test_stageSeam_presents :
    (presents 2 (after (.stageSeam 2) (asks 2 0x21 seamNine R))).map (fun e => (e, e.units)) =
      some (.seam 9 { members := [2, 3]
                      points := [[{ node := 81, coverage := 50000 }, { node := 7, coverage := 50000 }]] }, 3) := by
  decide +kernel

/-- R21: a link that is no member is refused NOT_PERMITTED, two equal members BAD_FIELD. -/
theorem test_stageSeam_refusals :
    code 5 (after (.stageSeam 5) (asks 5 0x21 seamNine R)) = some .notPermitted ∧
      code 2 (after (.stageSeam 2) (asks 2 0x21 [9, 2, 1, 2, 2, 81, 0, 0, 0, 7, 0, 0, 0] R)) = some .badField := by
  decide +kernel

/-- R22: an absent seam is NOT_FOUND to a tile link and taken from SL. -/
theorem test_dropSeam :
    code 2 (after (.dropSeam 2) (asks 2 0x22 [9] R)) = some .notFound ∧
      presents 12 (after (.dropSeam 12) (asks 12 0x22 [9] R)) = some (.seamDrop 9) := by decide +kernel

/-- R9: β of 5000 is taken as 4095, with CLAMPED. -/
theorem test_stageChannel_clamps :
    ((after (.stageChannel 2) (asks 2 0x23 [2, 2, 0, 0, 0, 0, 0x88, 0x13, 0, 0, 0, 0, 0, 0] R)).ports[(2 : Link)].inProcess.map
      fun q => (q.clamped, q.record.edit.units)) = some (true, 2) ∧
      (match presents 2 (after (.stageChannel 2) (asks 2 0x23 [2, 2, 0, 0, 0, 0, 0x88, 0x13, 0, 0, 0, 0, 0, 0] R)) with
        | some (.channel _ _ v) => v.beta
        | _ => 0) = 4095 := by decide +kernel

/-- R14: a floor mode of 2 is BAD_FIELD. -/
theorem test_stageFloor_mode :
    code 12 (after (.stageFloor 12) (asks 12 0x24 [1, 2, 0, 0, 0] R)) = some .badField ∧
      presents 12 (after (.stageFloor 12) (asks 12 0x24 [3, 0, 250, 0, 0] R)) =
        some (.floor { mode := true, phiSet := true, tau := false } .fixed 250 0) := by decide +kernel

/-- R13, R204: target 1 + 3c + colour; an output value of 2000 is taken as 1023. -/
theorem test_stageLut_target :
    presents 3 (after (.stageLut 3) (asks 3 0x25 [11, 0, 4, 1, 0, 0xD0, 7] R)) =
      some (.lut (.output 3 .g) 1024 [1023]) ∧
      code 12 (after (.stageLut 12) (asks 12 0x25 [0, 0, 4, 1, 0, 0xD0, 7] R)) = some .badIndex := by decide +kernel

/-- A state in which TL3 and TL7 present a channel record each, the pointer at TL4. -/
def twoPresent : State :=
  let q := fun (l : Link) => { (Port.reset l) with
    inProcess := some { kind := 0x23, record := { betaRecord with origin := l }, clamped := false } }
  { R with ports := put (put R.ports 3 (q 3)) 7 (q 7), staging := { R.staging with pointer := 4 } }

/-- Ch. 5, FOUR LINKS PRESENT AT ONCE: from TL4 the turn is TL7's and the pointer goes to TL8. -/
theorem test_stagingTurn_rotates :
    let t := after .stagingTurn twoPresent
    t.staging.pointer = 8 ∧ t.staging.records.map EditRecord.origin = [7] ∧
      body 7 t = some (.staged 2 2) ∧ t.ports[(3 : Link)].inProcess.isSome = true := by decide +kernel

/-- A run of LUT records of 257 units each. -/
def lutRecord (l : Link) (n : Nat) : EditRecord := { origin := l, edit := .lut .input 0 (List.replicate n 0) }

/-- Ch. 5, A FULL QUEUE: with 8191 of 8192 units a record of 2 does not fit. -/
theorem test_stagingTurn_full :
    let s := { twoPresent with staging := { records := List.replicate 31 (lutRecord 12 256) ++ [lutRecord 12 223], mark := none, pointer := 4 } }
    let t := after .stagingTurn s
    s.staging.occupancy = 8191 ∧ code 7 t = some .stageFull ∧ body 7 t = some (.staged 2 8191) ∧
      t.counters[Counter.stagingRefusals] = 1 := by decide +kernel

/-- Ch. 5, DISCARD WHILE A COMMIT IS IN FLIGHT: [a] [b] [c] d e; TL2 removes d alone, with PARTIAL. -/
def discardState : State :=
  { R with staging := { records := [⟨2, .seamDrop 1⟩, ⟨5, .seamDrop 2⟩, ⟨2, .seamDrop 3⟩, ⟨2, .seamDrop 4⟩, ⟨5, .seamDrop 5⟩]
                        mark := some { count := 3, units := 3 }, pointer := 0 } }

theorem test_discard_partial :
    let t := after (.discard 2) (asks 2 0x26 [] discardState)
    t.staging.records.map EditRecord.edit = [.seamDrop 1, .seamDrop 2, .seamDrop 3, .seamDrop 5] ∧
      (reply 2 t).map (fun r => (r.isPartial, r.body)) = some (true, .removed 1) := by decide +kernel

/-! ### Commits -/

/-- R91: the mark takes every record; ch. 6: a COMMIT that finds the engine running is BUSY with its state and link. -/
theorem test_commit :
    let t := after (.commit 2) (asks 2 0x30 [] { R with staging := { R.staging with records := [betaRecord] } })
    t.staging.mark = some { count := 1, units := 2 } ∧ t.engine.state = .applying ∧ body 2 t = some (.marked 1 2) ∧
      body 12 (after (.commit 12) (asks 12 0x30 [] t)) = some (.engineBusy .applying (some 2)) := by decide +kernel

/-- Ch. 6, WORKED SEQUENCE: SL aborts TL3's commit in NORMALIZING; both get the ABORTED notice. -/
theorem test_abortCommit :
    let t := after (.abortCommit 12 .responseFirst) (asks 12 0x31 [] (inPhase .normalizing (commitOf 3 []) Bank.dark))
    t.engine.last.outcome.result = .aborted ∧ t.staging.mark = none ∧ t.staging.records.length = 1 ∧
      body 12 t = some (.abortedIn .normalizing) ∧ noticeCount t.ports[(3 : Link)].outbound = 1 ∧
      t.counters[Counter.commitsAborted] = 1 := by decide +kernel

/-- Ch. 3, A PROJECTOR'S BLACK RISES: APPLYING writes β = 180 of channel 1 and nothing of its raster. -/
theorem test_applying :
    let t := after .applyingCompletes (inPhase .applying (commitOf 12 []) Bank.dark)
    t.engine.state = .checking ∧ t.tables.shadow.records[(1 : Channel)] = { ChannelRecord.dark with beta := 180 } := by
  decide +kernel

/-- Ch. 2, CHECKING: a VOID member node fails the commit with its channel and node. -/
theorem test_checking_void :
    let t := after .checkingCompletes (inPhase .checking (commitOf 12 []) (seamBank lit Node.dark 1 1))
    t.engine.last.outcome.error = .seamVoidNode ∧ t.engine.last.outcome.item = some (.node 1 0) ∧
      t.staging.records.length = 1 ∧ t.counters[Counter.commitsFailed] = 1 := by decide +kernel

theorem test_checking_walk :
    let t := after .checkingCompletes (inPhase .checking (commitOf 12 []) (seamBank lit lit 1 1))
    t.engine.state = .normalizing ∧ (t.tables.shadow.node 1 0).seamRef = some { seam := 0, point := 0 } := by decide +kernel

/-- Ch. 2, WIDENING A SEAM, point 0 at the start: 40000 and 20000 give 2731 and 1365. -/
theorem test_normalizing :
    let t := after .normalizingCompletes (inPhase .normalizing (commitOf 12 []) (seamBank lit lit 40000 20000))
    (t.tables.shadow.node 0 0).weight = 2731 ∧ (t.tables.shadow.node 1 0).weight = 1365 ∧ t.engine.state = .flooring := by
  decide +kernel

theorem test_normalizing_zero :
    let t := after .normalizingCompletes (inPhase .normalizing (commitOf 12 []) (seamBank lit lit 0 0))
    t.engine.last.outcome.error = .zeroCoverage ∧ t.engine.last.outcome.item = some (.point 0 0) := by decide +kernel

/-- A member node of point 0 of seam 0. -/
def member (w : Nat) : Node := { lit with seamRef := some { seam := 0, point := 0 }, weight := w }

/-- The seam bank after NORMALIZING, with β 120 and 140 (ch. 3, A FOUR-CHANNEL SECTION, seam 0: lead channel 1). -/
def blackBank (mode : FloorMode) (phi : Nat) : Bank :=
  let b := seamBank (member 1365) (member 2731) 20000 40000
  { b with
    records := put (put b.records 0 { ChannelRecord.dark with beta := 120 }) 1 { ChannelRecord.dark with beta := 140 }
    sky := { b.sky with floorMode := mode, phiSet := 250, phi := phi, headroom := 65535 - phi } }

/-- Ch. 3: the black of a point of seam 0 is 120 + 140 = 260; in AUTO mode Φ = 260 here and H = 65275. -/
theorem test_flooring_auto :
    let t := after .flooringCompletes (inPhase .flooring (commitOf 12 []) (blackBank .auto 0))
    t.tables.shadow.sky.phi = 260 ∧ t.tables.shadow.sky.headroom = 65275 ∧ t.engine.state = .lifting := by decide +kernel

/-- Ch. 3, FIXED mode: Φ = 250, H = 65285. -/
theorem test_flooring_fixed :
    let t := after .flooringCompletes (inPhase .flooring (commitOf 12 []) (blackBank .fixed 0))
    t.tables.shadow.sky.phi = 250 ∧ t.tables.shadow.sky.headroom = 65285 := by decide +kernel

/-- Ch. 3, AUTO mode: at Φ = 390 a point of seam 0 gives 65 to channel 0 and 65 to the lead. -/
theorem test_lifting :
    let t := after .liftingCompletes
      (inPhase .lifting (commitOf 12 [{ seam := 0, point := 0, position := 1 }]) (blackBank .auto 390))
    (t.tables.shadow.node 0 0).lift = 65 ∧ (t.tables.shadow.node 1 0).lift = 65 ∧ t.engine.state = .armed := by
  decide +kernel

/-- Ch. 3, FIXED mode, floor set too low: a point of seam 0 has no lift and counts once in the shortfall count. -/
theorem test_lifting_shortfall :
    let t := after .liftingCompletes
      (inPhase .lifting (commitOf 12 [{ seam := 0, point := 0, position := 1 }]) (blackBank .fixed 250))
    (t.tables.shadow.node 1 0).lift = 0 ∧ t.engine.last.floor.shortfall = 1 := by decide +kernel

/-! ### Barrier, timing, outputs, fade -/

/-- R152, R153: TL2 enrolls and withdraws its own channel; the response carries the set. -/
theorem test_enroll_withdraw :
    let t := after (.enroll 2) (asks 2 0x40 [4, 0] (enrolled 0 R))
    body 2 t = some (.enrollment 5#12) ∧
      body 12 (after (.withdraw 12) (asks 12 0x41 [4, 0] t)) = some (.enrollment 1#12) ∧
      code 2 (after (.enroll 2) (asks 2 0x40 [1, 0] R)) = some .notPermitted := by decide +kernel

/-- R155: θ = 300 is taken as 255; λ = 0 is BAD_FIELD. -/
theorem test_setBarrier :
    body 12 (after (.setBarrier 12) (asks 12 0x42 [1, 0x2C, 1, 0, 0, 0, 0, 0] R)) = some (.barrier 255 8 4) ∧
      code 12 (after (.setBarrier 12) (asks 12 0x42 [4, 0, 0, 0, 0, 0, 0, 0] R)) = some .badField := by decide +kernel

/-- Ch. 8, CHANGING THE CADENCE: the latch changes, the counter stays. -/
theorem test_setCadence :
    body 12 (after (.setCadence 12) (asks 12 0x43 [1] (withBarrier (fun b => { b with reload := 3, cadence := 2 }) R))) =
      some (.cadence 1 2) := by decide +kernel

/-- Ch. 9, A FADE REPLACED MIDWAY: target 5000, duration 0 is taken as 4096, with CLAMPED, and F stays. -/
theorem test_fade :
    (reply 12 (after (.fade 12) (asks 12 0x50 [0x88, 0x13, 0, 0] R))).map (fun r => (r.clamped, r.body)) =
      some (true, .fade { level := 0, target := 4096, remaining := 0 }) := by decide +kernel

/-- Ch. 9, A FADE REPLACED MIDWAY: 2048 to 0 over 3 steps through 1366, 683 and 0. -/
theorem test_fade_steps :
    let f : Fade := { level := 2048, target := 0, remaining := 3 }
    f.step.level = 1366 ∧ f.step.step.level = 683 ∧ f.step.step.step.level = 0 := by decide +kernel

/-- Ch. 9, BRINGING TWO OUTPUTS UP: OUTPUT_ON of a STOPPING output makes it ACTIVE, of a DISABLED one STARTING. -/
theorem test_outputOn :
    let s := withTiming (fun t => { t with outputs := put t.outputs 1 .stopping }) R
    let t := after (.outputOn 12) (asks 12 0x51 [3, 0] s)
    t.timing.outputs[(0 : Channel)] = .starting ∧ t.timing.outputs[(1 : Channel)] = .active ∧
      t.timing.outputs[(2 : Channel)] = .disabled := by decide +kernel

theorem test_outputOff :
    let s := withTiming (fun t => { t with outputs := put (put t.outputs 1 .active) 0 .starting }) R
    let t := after (.outputOff 12) (asks 12 0x52 [3, 0] s)
    t.timing.outputs[(0 : Channel)] = .disabled ∧ t.timing.outputs[(1 : Channel)] = .stopping := by decide +kernel

/-- Ch. 9, ACQUIRING HOUSE SYNC: EXTERNAL keeps the period and goes to ACQUIRE, with a notice to SL. -/
theorem test_setTiming_external :
    let t := after (.setTiming 12 (takenAt 0)) (asks 12 0x53 [1, 0] R)
    body 12 t = some (.timing .external .acquire 16666666) ∧ noticeCount t.ports[(12 : Link)].outbound = 1 := by
  decide +kernel

/-- R162: a rate of 23 is BAD_FIELD, 24 gives the period 41666666; taken one nanosecond past one new period after the last
frame start, the request brings the next one at once. -/
theorem test_setTiming_internal :
    let t := fun time => after (.setTiming 12 (takenAt time)) (asks 12 0x53 [0, 24] R)
    code 12 (after (.setTiming 12 (takenAt 0)) (asks 12 0x53 [0, 23] R)) = some .badField ∧
      body 12 (t 41666667) = some (.timing .internal .free 41666666) ∧
      [41666666, 41666667].map (fun time => ((t time).counters[Counter.frameStarts], (t time).timing.lastFrameStart)) =
        [(0, 0), (1, 41666667)] := by decide +kernel

/-- Ch. 9, BRINGING TWO OUTPUTS UP: 2560 × 1600 is accepted with every output DISABLED; else OUTPUTS_ACTIVE. -/
theorem test_setRaster :
    body 12 (after (.setRaster 12) (asks 12 0x54 [0, 10, 0x40, 6] R)) = some (.raster 2560 1600) ∧
      code 12 (after (.setRaster 12) (asks 12 0x54 [0, 8, 0, 6]
        (withTiming (fun t => { t with outputs := put t.outputs 0 .active }) R))) = some .outputsActive := by decide +kernel

/-! ### Output frame starts -/

/-- Ch. 8, A LATE RENDER NODE, frame start 1 with two channels: a normal release promotes both. -/
def twoReady : State := readyWith 1 700 (readyWith 0 700 (enrolled 1 (enrolled 0 (withBarrier (fun b => { b with skyFrame := 40 }) R))))

theorem test_outputFrameStart_release :
    let t := after (.outputFrameStart race) twoReady
    t.barrier.skyFrame = 41 ∧ t.barrier.waitCount = 0 ∧
      (t.receivers[(1 : Channel)].banks[1]).state = .shown ∧ (t.receivers[(1 : Channel)].banks[0]).state = .free ∧
      t.counters[Counter.releases] = 1 ∧ t.counters[Counter.frameStarts] = 1 := by decide +kernel

/-- Ch. 8, frame start 9: channel 1's tag differs from channel 0's; the skew is counted. -/
theorem test_outputFrameStart_skew :
    let t := after (.outputFrameStart race) (readyWith 1 707 (readyWith 0 708 (enrolled 1 (enrolled 0 R))))
    t.counters[Counter.ofChannel 1 7] = 1 ∧ t.counters[Counter.skewReleases] = 1 ∧
      t.counters[Counter.ofChannel 0 7] = 0 := by decide +kernel

/-- Ch. 8, frame start 2: channel 1 is not ready and ω = 1 is below θ = 2: hold. -/
theorem test_eligibleFrameStart_hold :
    let t := after (.eligibleFrameStart race) (readyWith 0 700 (enrolled 1 (enrolled 0 R)))
    t.barrier.waitCount = 1 ∧ t.barrier.skyFrame = 0 ∧ (t.receivers[(0 : Channel)].banks[1]).state = .ready := by
  decide +kernel

/-- Ch. 8, frame start 3: ω reaches θ; a forced release counts the late channel. -/
def forcedState : State := withBarrier (fun b => { b with waitCount := 1 }) (readyWith 0 702 (enrolled 1 (enrolled 0 R)))

theorem test_forcedRelease :
    let t := after (.forcedRelease race) forcedState
    t.barrier.skyFrame = 1 ∧ t.counters[Counter.forcedReleases] = 1 ∧ (t.barrier.channels[(1 : Channel)]).lateCount = 1 ∧
      (t.receivers[(0 : Channel)].banks[1]).state = .shown ∧ (t.receivers[(1 : Channel)].banks[0]).state = .shown := by
  decide +kernel

/-- Ch. 8, frame start 7: at σ the channel stalls and, with policy DARK, goes dark. -/
def stallState : State :=
  withBarrier (fun b => { b with
    stallLimit := 3, channels := upd b.channels 1 fun k => { k with lateCount := 2, policy := .dark } }) forcedState

theorem test_stall :
    let t := after (.stall 1 race) stallState
    (t.barrier.channels[(1 : Channel)]).stalled = true ∧ (t.barrier.channels[(1 : Channel)]).dark = true ∧
      (t.barrier.channels[(1 : Channel)]).lateCount = 3 ∧ t.counters[Counter.ofChannel 1 5] = 1 := by decide +kernel

/-- Ch. 7, A RENDER NODE FALLS SILENT, frame start 4: loss count 4 reaches λ; the FILLING bank is freed. -/
def silentState : State :=
  { receiving 7 100 R with receivers := upd (receiving 7 100 R).receivers 7 fun r => { r with lossCount := 3 } }

theorem test_inputLost :
    let t := after (.inputLost 7 race) silentState
    t.receivers[(7 : Channel)].state = .lost ∧ t.receivers[(7 : Channel)].lossCount = 4 ∧
      (t.receivers[(7 : Channel)].banks[1]).state = .free ∧ t.counters[(71 : CounterIx)] = 1 ∧
      noticeCount t.ports[(7 : Link)].outbound = 1 := by decide +kernel

/-- Channel 2 ready and receiving (ch. 7, A NEW INPUT RASTER). -/
def rasterReceiver : Receiver :=
  { state := .receiving, lossCount := 0, lineCount := 10
    banks := #v[{ FrameBank.free with state := .shown, tag := 77 }, { FrameBank.free with state := .ready, tag := 78 },
                { FrameBank.free with state := .filling, tag := 79 }] }

/-- An armed commit of TL5 that changes channel 2's raster (ch. 7, A NEW INPUT RASTER). -/
def rasterState : State :=
  let b := { Bank.dark with records := put Bank.dark.records 2 { ChannelRecord.dark with width := 2048, height := 1536 } }
  let s := enrolled 2 (inPhase .armed (commitOf 5 []) b)
  { s with receivers := put s.receivers 2 rasterReceiver }

/-- The swap is taken whole with the release (ch. 6, THE SWAP), promotion before raster change (ch. 7). -/
theorem test_outputFrameStart_swap :
    let t := after (.outputFrameStart race) rasterState
    t.tables.activeIsB = true ∧ t.engine.last.outcome.swapFrame = some 1 ∧ t.staging.records = [] ∧
      t.receivers[(2 : Channel)].banks.toList.map FrameBank.state = [.free, .shown, .free] ∧
      (t.receivers[(2 : Channel)].banks[1]).tag = 0 ∧ t.counters[(26 : CounterIx)] = 1 ∧ t.counters[(28 : CounterIx)] = 0 := by
  decide +kernel

/-- The other order: no promotion, and the READY frame counts as replaced (ch. 7, A NEW INPUT RASTER). -/
theorem test_outputFrameStart_rasterFirst :
    let t := after (.outputFrameStart rasterFirst) rasterState
    t.receivers[(2 : Channel)].banks.toList.map FrameBank.state = [.shown, .free, .free] ∧
      t.counters[(26 : CounterIx)] = 1 ∧ t.counters[(28 : CounterIx)] = 1 := by decide +kernel

/-- R197: TL7 and SL each get the release and the loss of channel 7's input in an order of their own. -/
theorem test_notices_perPort :
    let r := { race with notices := put race.notices 12 [.inputLost 7] }
    let t := after (.outputFrameStart r) (withBarrier (fun b => { b with waitCount := 1 }) (enrolled 7 silentState))
    let kinds := fun l : Link => t.ports[l].outbound.map fun m => match m with
      | .response _ => none
      | .notice n => some n.body.kind
    kinds 7 = [some .release, some .channel] ∧ kinds 12 = [some .channel, some .release] := by decide +kernel

/-- Ch. 9: e9 is within tolerance: an output frame start. -/
theorem test_refEdge_locked :
    let t := after (.refEdge 116683352 race) locked
    t.counters[Counter.frameStarts] = 1 ∧ t.timing.state = .locked ∧ t.timing.lastFrameStart = 116683352 := by decide +kernel

/-- Ch. 9: at e8 the four intervals agree and the period becomes 16683348. -/
theorem test_refEdge_locks :
    let s := withTiming (fun t => { t with
      source := .external, state := .acquire, lastEdge := some 100000000, clock := 100000000
      intervals := [12683355, 16683345, 16683350, 16683360] }) R
    let t := after (.refEdge 116683340 race) s
    t.timing.state = .locked ∧ t.timing.period = 16683348 ∧ t.counters[Counter.frameStarts] = 0 ∧
      noticeCount t.ports[(12 : Link)].outbound = 1 := by decide +kernel

/-- Ch. 9: the substitute falls 16748517 after e9. -/
theorem test_substituteFrameStart :
    let t := after (.substituteFrameStart race) locked
    t.timing.lastFrameStart = 116748517 ∧ t.counters[Counter.frameStarts] = 1 ∧ t.timing.state = .locked := by decide +kernel

/-- Ch. 9: holdover begins 33366696 after e9, counted and notified. -/
theorem test_holdoverEntry :
    let t := after .holdoverEntry (withTiming (fun t => { t with substituted := true }) locked)
    t.timing.state = .holdover ∧ t.timing.clock = 133366696 ∧ t.timing.period = 16683348 ∧
      t.counters[Counter.lockLosses] = 1 := by decide +kernel

/-! ### Pixels -/

/-- Channel 3 with Φ = 390, one cell of interior nodes at lift 299 and U = V = 0, and a frame in progress (ch. 4, WORKED
SEQUENCE: ONE PIXEL THROUGH SIX FRAMES, the tables). -/
def picture (dark : Bool) : State :=
  let n := { lit with weight := 4096, lift := 299 }
  let b := { Bank.dark with
    grids := put Bank.dark.grids 3 ⟨[(0, n), (1, n), (41, n), (42, n)]⟩
    sky := { Bank.dark.sky with phi := 390, headroom := 65145 } }
  { R with
    tables := { R.tables with bankA := b }
    timing := { R.timing with outputs := put R.timing.outputs 3 .active }
    engines := put R.engines 3
      { context := some { bankIsB := false, shown := 0, fade := 4096, dark := dark, width := 640, height := 480, contentOff := false }
        x := 0, y := 0, out := OutPixel.zero } }

/-- Ch. 4, WORKED PIXELS 3: a dark channel and a cleared SHOWN bank both show code 5 at o = 299. -/
theorem test_pixelDelivery_floor :
    let t := after (.pixelDelivery 3) (picture true)
    t.engines[(3 : Channel)].out = { r := 5, g := 5, b := 5 } ∧ t.engines[(3 : Channel)].x = 1 ∧
      (after (.pixelDelivery 3) (picture false)).engines[(3 : Channel)].out = { r := 5, g := 5, b := 5 } := by decide +kernel

/-- R58: a DISABLED output delivers code 0. -/
theorem test_pixelDelivery_disabled :
    (after (.pixelDelivery 3) (withTiming (fun t => { t with outputs := put t.outputs 3 .disabled }) (picture false))).engines[(3 : Channel)].out
      = OutPixel.zero := by decide +kernel

/-- Ch. 7, A RENDER NODE AHEAD, header 1001: the lowest-numbered FREE bank fills. -/
theorem test_frameHeader :
    let t := after (.frameHeader 4 1001) (idleInput 4 1 R)
    t.receivers[(4 : Channel)].state = .receiving ∧ t.receivers[(4 : Channel)].lossCount = 0 ∧
      t.receivers[(4 : Channel)].banks.toList.map FrameBank.state = [.shown, .filling, .free] ∧
      (t.receivers[(4 : Channel)].banks[1]).tag = 1001 := by decide +kernel

/-- Channel 7 with λ = 1 and a header just taken in IDLE at a loss count of λ − 1. -/
def justBegun : State := after (.frameHeader 7 100) (withBarrier (fun b => { b with lossLimit := 1 }) (idleInput 7 0 R))

/-- An order of a frame start with which every header just taken fell together. -/
def headersFirst : FrameRace := { race with together := Vector.replicate 12 true }

/-- R125, middle row, header first: loss count 0, then 1, and no loss. R124: without the header the loss is declared. -/
theorem test_frameHeader_together :
    let t := after (.outputFrameStart headersFirst) justBegun
    let u := after (.outputFrameStart headersFirst) t
    t.receivers[(7 : Channel)].state = .receiving ∧ t.receivers[(7 : Channel)].lossCount = 1 ∧
      t.counters[(71 : CounterIx)] = 0 ∧ (after (.inputLost 7 headersFirst) justBegun).counters[(71 : CounterIx)] = 0 ∧
      u.receivers[(7 : Channel)].state = .lost ∧ u.counters[(71 : CounterIx)] = 1 ∧
      (after (.outputFrameStart race) justBegun).receivers[(7 : Channel)].state = .lost := by decide +kernel

/-- Ch. 7, A RENDER NODE FALLS SILENT: a header in LOST emits INPUT_RESTORED to the tile link and SL. -/
theorem test_frameHeader_restores :
    let t := after (.frameHeader 7 600) R
    noticeCount t.ports[(7 : Link)].outbound = 1 ∧ noticeCount t.ports[(12 : Link)].outbound = 1 ∧
      t.receivers[(7 : Channel)].state = .receiving := by decide +kernel

/-- R121: a short line is written and sets the malformed flag; the row is the line count less 1. -/
theorem test_line_short :
    let p : Pixel := { r := 7, g := 8, b := 9 }
    let t := after (.line 4 [p]) (receiving 4 2 R)
    t.receivers[(4 : Channel)].lineCount = 3 ∧ (t.receivers[(4 : Channel)].banks[1]).malformed = true ∧
      (t.receivers[(4 : Channel)].banks[1]).pixel 0 2 = p := by decide +kernel

/-- Ch. 7, A RENDER NODE AHEAD: 1080 lines make the frame READY; 1079 make it malformed. -/
theorem test_frameEnd :
    (after (.frameEnd 4) (receiving 4 1080 R)).receivers[(4 : Channel)].banks.toList.map FrameBank.state =
      [.shown, .ready, .free] ∧
      (after (.frameEnd 4) (receiving 4 1079 R)).counters[Counter.ofChannel 4 2] = 1 := by decide +kernel

/-- Ch. 8: a stalled channel rejoins with its late count 0 and its dark flag kept. -/
theorem test_frameEnd_rejoins :
    let s := receiving 2 1080 (withBarrier (fun b => { b with channels := upd b.channels 2 fun _ =>
      { enrolled := true, policy := .dark, stalled := true, lateCount := 3, dark := true } }) R)
    let t := after (.frameEnd 2) s
    t.barrier.channels[(2 : Channel)] = { enrolled := true, policy := .dark, stalled := false, lateCount := 0, dark := true } ∧
      noticeCount t.ports[(2 : Link)].outbound = 1 := by decide +kernel

/-! ### The Request Unit's own requests and reads -/

theorem test_setMode :
    (after (.setMode 12) (asks 12 0x60 [1] R)).mode = .showing ∧
      code 3 (after (.setMode 3) (asks 3 0x60 [1] R)) = some .notPermitted := by decide +kernel

/-- R194: bit 3 is TIMING; a bit above bit 3 is BAD_FIELD. -/
theorem test_setNotices :
    (after (.setNotices 12) (asks 12 0x62 [9] R)).ports[(12 : Link)].mask =
      { release := true, commit := false, channel := false, timing := true } ∧
      code 12 (after (.setNotices 12) (asks 12 0x62 [16] R)) = some .badField := by decide +kernel

/-- R188: the response names the KIND received. -/
theorem test_unknownKind :
    (reply 5 (after (.unknownKind 5) (asks 5 0x7F [] R))).map (fun r => (r.kind, r.code)) = some (0x7F, .unknownKind) ∧
      after (.unknownKind 5) (asks 5 0x30 [] R) = asks 5 0x30 [] R := by decide +kernel

/-- Ch. 10, RESTART WHILE A TILE LINK WAITS: TL7 is answered BUSY, the queue empty, the pointer at TL0. -/
theorem test_restart :
    let t := after (.restart 12 .responseFirst) (asks 12 0x61 [] twoPresent)
    code 12 t = some .accepted ∧ code 7 t = some .busy ∧ t.staging.pointer = 0 ∧ t.ports[(7 : Link)].inProcess = none := by
  decide +kernel

theorem test_restart_tile : code 3 (after (.restart 3 .responseFirst) (asks 3 0x61 [] R)) = some .notPermitted := by
  decide +kernel

/-- Ch. 1, WORKED SEQUENCE: SHADOW is NOT_ARMED before arming, ACTIVE is returned. -/
theorem test_readNodes :
    code 3 (after (.readNodes 3) (asks 3 0x70 [1, 3, 0xF4, 1, 1] R)) = some .notArmed ∧
      body 3 (after (.readNodes 3) (asks 3 0x70 [0, 3, 0, 0, 1] (picture false))) =
        some (.nodes [{ lit with weight := 4096, lift := 299 }]) := by decide +kernel

/-- Ch. 2: NOT_FOUND carries the pool summary. -/
theorem test_readSeam :
    (reply 3 (after (.readSeam 3) (asks 3 0x71 [0, 9] R))).map (fun r => (r.code, r.body)) =
      some (.notFound, .pool 0 0) ∧
      body 3 (after (.readSeam 3) (asks 3 0x71 [1, 0] (inPhase .armed (commitOf 12 []) (seamBank lit lit 1 2)))) =
        some (.seam 1 1 0 { members := [0, 1], points := [[{ node := 0, coverage := 1 }, { node := 0, coverage := 2 }]] }) := by
  decide +kernel

/-- R210 to R213: the global record is 67 bytes and a channel's 37. -/
theorem test_readStatus :
    (body 3 (after (.readStatus 3) (asks 3 0x72 [255] R))).map (fun b => b.bytes.length) = some 67 ∧
      (body 3 (after (.readStatus 3) (asks 3 0x72 [7] R))).map (fun b => b.bytes.length) = some 37 ∧
      code 3 (after (.readStatus 3) (asks 3 0x72 [12] R)) = some .badField := by decide +kernel

/-- Ch. 11, the requests of TL5. -/
theorem test_readCounter_tile :
    [[49, 0, 8], [125, 0, 4], [0, 0, 12], [57, 0, 1], [49, 0, 33]].map
      (fun p => code 5 (after (.readCounter 5) (asks 5 0x73 (p.map (BitVec.ofNat 8)) R))) =
      [some .accepted, some .accepted, some .notPermitted, some .notPermitted, some .badField] := by decide +kernel

/-- Ch. 11: 150 with count 8 reaches 157; 149 with count 8 is accepted. -/
theorem test_readCounter_show :
    code 12 (after (.readCounter 12) (asks 12 0x73 [150, 0, 8] R)) = some .badIndex ∧
      code 12 (after (.readCounter 12) (asks 12 0x73 [149, 0, 8] R)) = some .accepted := by decide +kernel

/-! ### Links and resets -/

/-- Ch. 10, A NOISY TILE LINK, message D: LENGTH 3000 is a framing error. -/
theorem test_linkByte_tooLong :
    let s := { R with ports := upd R.ports 4 fun p => { p with rx := .header [0x70, 0xB8] } }
    let t := after (.linkByte 4 0x0B) s
    t.ports[(4 : Link)].rx = .hunt ∧ t.counters[(122 : CounterIx)] = 1 := by decide +kernel

/-- A COMMIT message of length 0: its last CHECK byte completes it, and 3 bytes join the buffer (ch. 10, message E). -/
theorem test_linkByte_completes :
    let bytes := messageBytes 0x30 []
    let s := { R with ports := upd R.ports 4 fun p => { p with rx := .check 0x30 [] (bytes[4]?) } }
    (bytes[5]?).map (fun b => bufferRoom (after (.linkByte 4 b) s).ports[(4 : Link)].buffer) = some 3 := by decide +kernel

/-- Ch. 10, message C: the gap timer expires in HEADER. -/
theorem test_gapTimerExpiry :
    let s := { R with ports := upd R.ports 4 fun p => { p with rx := .header [0x30] } }
    (after (.gapTimerExpiry 4) s).ports[(4 : Link)].rx = .hunt ∧ (after (.gapTimerExpiry 4) s).counters[(122 : CounterIx)] = 1 ∧
      after (.gapTimerExpiry 4) R = R := by decide +kernel

/-- Ch. 10, SL HELD IN BREAK: waiting notices are lost without count. -/
theorem test_linkBreak :
    let t := after (.linkBreak 12) (queued 12 [.notice (summaryOf 99)] R)
    t.ports[(12 : Link)].outbound = [] ∧ t.ports[(12 : Link)].line = .broken ∧ t.counters[(156 : CounterIx)] = 0 := by
  decide +kernel

theorem test_linkBreakEnd : (after (.linkBreakEnd 12) (brokenLine 12 R)).ports[(12 : Link)].line = .isOpen := by decide +kernel

/-- A queue of 15 summaries on SL (ch. 10, SL HELD IN BREAK). -/
def fullQueue : State := queued 12 ((List.range 15).map fun i => .notice (summaryOf (101 + BitVec.ofNat 32 i))) R

/-- Release 116 coalesces into the summary for 115; TIMING is dropped; the next coalesced notice carries LOST. -/
theorem test_notices_coalesce :
    let s1 := hand 12 (.summary 116 false 0 0 false) fullQueue
    let s2 := hand 12 (.timing .holdover .locked .external 16683348) s1
    let s3 := hand 12 (.summary 118 false 0 0 false) s2
    (s1.ports[(12 : Link)].outbound.getLast?) =
      some (.notice { channel := none, lost := false, merged := 1, body := .summary 116 false 0 0 false }) ∧
      (s2.ports[(12 : Link)].lostFlag, s2.counters[(156 : CounterIx)]) = (true, 1#32) ∧
      (s3.ports[(12 : Link)].outbound.getLast?) =
        some (.notice { channel := none, lost := true, merged := 2, body := .summary 118 false 0 0 false }) := by decide +kernel

/-- The transmitter sends the head message; it leaves the queue with its last byte (R195, R196). -/
theorem test_messageTransmit :
    let s := queued 12 [.response (acceptance 0x60 false .empty)] R
    let t := after (.messageTransmit 12 4) s
    t.ports[(12 : Link)].txLine = [0xA5, 0xC0, 3, 0] ∧ t.ports[(12 : Link)].sent = 4 ∧
      (after (.messageTransmit 12 5) t).ports[(12 : Link)].outbound = [] := by decide +kernel

/-- R201: RESET_N low puts the part at its reset values and takes no event until it is high again. -/
theorem test_hardReset :
    let t := after .hardReset (inShow R)
    t.mode = .setup ∧ t.resetHeld = true ∧ after (.enroll 2) (asks 2 0x40 [4, 0] t) = asks 2 0x40 [4, 0] t := by
  decide +kernel

theorem test_hardResetEnd : after .hardResetEnd (after .hardReset R) = R := by decide +kernel

/-- With a command at the front of the queue, a step takes it. -/
theorem test_step_takes : (match step { R with pending := [.hardReset, .stagingTurn] } with
    | .next t => (t.resetHeld, t.pending)
    | .fault _ => (false, [])
    | .refused _ => (false, [])) = (true, [.stagingTurn]) := by decide +kernel

/-! ### Witnesses: states and operands that meet the hypotheses of the statements -/

theorem witness_StepTakesFrontCommand :
    ({ R with pending := [.stagingTurn, .hardReset] } : State).pending = .stagingTurn :: [.hardReset] ∧ R.pending = [] := by
  decide +kernel

theorem witness_HeldResetTakesNoEvent :
    ({ R with resetHeld := true } : State).resetHeld = true ∧ Instr.stagingTurn ≠ .hardResetEnd := by decide +kernel

theorem witness_HardResetValues :
    R.resetHeld = false ∧ (after .hardReset (inShow R)).resetHeld = true := by decide +kernel

theorem witness_PortTakesNoRequest :
    requestLink (.commit 3) = some 3 ∧ R.ports[(3 : Link)].buffer = [] ∧
      (twoPresent.ports[(3 : Link)]).inProcess.isSome = true ∧
      responsesIn (queued 3 [.response (acceptance 0x30 false .empty)] R).ports[(3 : Link)].outbound ≠ [] := by decide +kernel

theorem witness_OneResponseEach :
    requestLink (.stageNodes 3) = some 3 ∧ takesKind (.stageNodes 3) 0x20 ∧ Waits 3 0x20 moveNode (asks 3 0x20 moveNode R) :=
  ⟨rfl, .inl rfl, by decide +kernel⟩

theorem witness_OneResponseEach_unknown : takesKind (.unknownKind 3) 0x7F ∧ Waits 3 0x7F [] (asks 3 0x7F [] R) :=
  ⟨.inr ⟨⟨3, rfl⟩, by decide⟩, by decide +kernel⟩

theorem witness_RefusedChangesNothing :
    requestLink (.setMode 12) = some 12 ∧ takesKind (.setMode 12) 0x60 ∧ Waits 12 0x60 [2] (asks 12 0x60 [2] R) ∧
      exec (.setMode 12) (asks 12 0x60 [2] R) = .next (after (.setMode 12) (asks 12 0x60 [2] R)) ∧
      responsesIn (after (.setMode 12) (asks 12 0x60 [2] R)).ports[(12 : Link)].outbound = [refusal 0x60 .badField] ∧
      ResultCode.badField ≠ .accepted :=
  ⟨rfl, .inl rfl, by decide +kernel, rfl, by decide +kernel, by decide⟩

theorem witness_KindAndLengthChecked :
    (Waits 3 0x1F [] (asks 3 0x1F [] R) ∧ 0x1F ∉ kindTable) ∧ requestLink (.stageChannel 3) = some 3 ∧
      requestKind (.stageChannel 3) = some 0x23 ∧
      Waits 3 0x23 (List.replicate 13 0) (asks 3 0x23 (List.replicate 13 0) R) ∧
      (List.replicate 13 (0 : Byte)).length ≠ requiredLength 3 0x23 (List.replicate 13 0) := by decide +kernel

theorem witness_ShowRequestsNotPermitted :
    requestLink (.setMode 11) = some 11 ∧ requestKind (.setMode 11) = some 0x60 ∧ (11 : Link) ≠ 12 ∧
      Waits 11 0x60 [1] (asks 11 0x60 [1] R) ∧ [(1 : Byte)].length = requiredLength 11 0x60 [1] := by decide +kernel

/-- 64 node entries that end at node 1065, every field selected, a base weight of 5000 in each. -/
def fullNodes : List Byte := [11, 0xEA, 3, 64, 7] ++ (List.replicate 64 [0, 0, 0, 0, 0x88, 0x13, 1, 0]).flatten

theorem witness_StageNodesPresents :
    Waits 11 0x20 fullNodes (asks 11 0x20 fullNodes R) ∧ fullNodes.length = 5 + 8 * u8 fullNodes 3 ∧
      u8 fullNodes 0 = (11 : Channel).val ∧ 1 ≤ u8 fullNodes 3 ∧ u8 fullNodes 3 ≤ 64 ∧
      (bitAt fullNodes 4 0 || bitAt fullNodes 4 1 || bitAt fullNodes 4 2) = true ∧ u16 fullNodes 1 + u8 fullNodes 3 = 1066 ∧
      (11 : Link).val = (11 : Channel).val := by decide +kernel

/-- A byte out of range at each place; a run past the grid; another channel. -/
theorem witness_StageNodesPresents_refused :
    let bad := fun p : List Byte =>
      12 ≤ u8 p 0 ∨ u8 p 3 = 0 ∨ 64 < u8 p 3 ∨ (bitAt p 4 0 || bitAt p 4 1 || bitAt p 4 2) = false
    (∀ p ∈ [[12, 0, 0, 1, 1] ++ List.replicate 8 0, [4, 0, 0, 0, 1], [4, 0, 0, 65, 1] ++ List.replicate 520 0,
      [4, 0, 0, 1, 0xF8] ++ List.replicate 8 (0 : Byte)], Asked 4 0x20 p ∧ p.length = 5 + 8 * u8 p 3 ∧ bad p) ∧
      (let p := [(4 : Byte), 0x2A, 4, 1, 1] ++ List.replicate 8 0
       Asked 4 0x20 p ∧ p.length = 5 + 8 * u8 p 3 ∧ ¬ bad p ∧ 1066 < u16 p 1 + u8 p 3) ∧
      Asked 4 0x20 moveNode ∧ moveNode.length = 5 + 8 * u8 moveNode 3 ∧ ¬ bad moveNode ∧
      u16 moveNode 1 + u8 moveNode 3 ≤ 1066 ∧ (4 : Link).val ≠ u8 moveNode 0 := by decide +kernel

theorem witness_SeamEditsPresent_stage :
    Waits 2 0x21 seamNine (asks 2 0x21 seamNine R) ∧ seamNine.length = 3 + u8 seamNine 1 + 4 * u8 seamNine 2 * u8 seamNine 1 ∧
      u8 seamNine 0 = (9 : SeamId).val ∧ 2 ≤ u8 seamNine 1 ∧ u8 seamNine 1 ≤ 4 ∧ 1 ≤ u8 seamNine 2 ∧ u8 seamNine 2 ≤ 96 ∧
      ([2, 3] : List Channel).length = u8 seamNine 1 ∧
      (∀ j, j < u8 seamNine 1 → (([2, 3] : List Channel)[j]?).map Fin.val = some (u8 seamNine (3 + j))) ∧
      ([2, 3] : List Channel).Nodup ∧
      (∀ i, i < u8 seamNine 2 → ∀ j, j < u8 seamNine 1 →
        u16 seamNine (3 + u8 seamNine 1 + 4 * (i * u8 seamNine 1 + j)) < 1066) ∧
      ∃ c ∈ ([2, 3] : List Channel), (2 : Link).val = c.val := by decide +kernel

/-- A part whose ACTIVE holds seam 0 of channels 0 and 1. -/
def seamActive : State := { R with tables := { R.tables with bankA := seamBank lit lit 1 1 } }

theorem witness_SeamEditsPresent_drop :
    Waits 1 0x22 [0] (asks 1 0x22 [0] seamActive) ∧ [(0 : Byte)].length = 1 ∧ u8 [0] 0 = (0 : SeamId).val ∧
      (1 : Link).val = (1 : Channel).val ∧
      (asks 1 0x22 [0] seamActive).tables.active.seams[(0 : SeamId)] =
        some { members := [0, 1], points := [[{ node := 0, coverage := 1 }, { node := 0, coverage := 1 }]] } ∧
      (1 : Channel) ∈ [(0 : Channel), 1] := by decide +kernel

/-- A field of STAGE_SEAM out of range (R21). -/
abbrev SeamBad (p : List Byte) : Prop :=
  48 ≤ u8 p 0 ∨ u8 p 1 < 2 ∨ 4 < u8 p 1 ∨ (∃ j, j < u8 p 1 ∧ 12 ≤ u8 p (3 + j)) ∨
    (∃ j, j < u8 p 1 ∧ ∃ k, k < j ∧ u8 p (3 + k) = u8 p (3 + j)) ∨ u8 p 2 = 0 ∨ 96 < u8 p 2

/-- A node of STAGE_SEAM past the grid (R21). -/
abbrev SeamPast (p : List Byte) : Prop :=
  ∃ i, i < u8 p 2 ∧ ∃ j, j < u8 p 1 ∧ 1066 ≤ u16 p (3 + u8 p 1 + 4 * (i * u8 p 1 + j))

/-- A STAGE_SEAM of the length it requires waits. -/
abbrev SeamAsked (l : Link) (p : List Byte) : Prop := Asked l 0x21 p ∧ p.length = 3 + u8 p 1 + 4 * u8 p 2 * u8 p 1

/-- S9 with node 1066 in its first entry. -/
def pastSeam : List Byte := [9, 2, 1, 2, 3, 0x2A, 4] ++ seamNine.drop 7

/-- Ids, counts and members out of range, two equal members, a node past the grid, and a link that is no member. -/
theorem witness_SeamEditsPresent_refused :
    (∀ p ∈ [48 :: seamNine.tail, [9, 1, 1, 2, 0, 0, 0, 0], [9, 2, 0, 2, 3], [9, 2, 1, 2, 12] ++ seamNine.drop 5,
      [9, 2, 1, 2, 2] ++ seamNine.drop 5], SeamAsked 2 p ∧ SeamBad p) ∧
      (SeamAsked 2 pastSeam ∧ ¬ SeamBad pastSeam ∧ SeamPast pastSeam) ∧
      (SeamAsked 5 seamNine ∧ ¬ SeamBad seamNine ∧ ¬ SeamPast seamNine) ∧
      (∀ j, j < u8 seamNine 1 → u8 seamNine (3 + j) ≠ (5 : Link).val) ∧ (Asked 2 0x22 [48] ∧ Asked 2 0x22 [47]) ∧
      R.tables.active.seams[(47 : SeamId)] = none ∧ Waits 2 0x22 [0] (asks 2 0x22 [0] seamActive) := by
  refine ⟨?_, ?_, ?_, ?_, ?_, ?_, ?_⟩ <;> decide +kernel

/-- A channel record of 2560 × 256 with a β and gains above their ceilings, for channel 3. -/
def fullChannel : List Byte := [3, 7, 0, 10, 0, 1, 0, 0x10, 0xFF, 0xFF, 1, 0x10, 0, 0]

theorem witness_StageChannelAndFloorPresent :
    (Waits 3 0x23 fullChannel (asks 3 0x23 fullChannel R) ∧ fullChannel.length = 14 ∧ u8 fullChannel 0 = (3 : Channel).val ∧
      (bitAt fullChannel 1 0 || bitAt fullChannel 1 1 || bitAt fullChannel 1 2) = true ∧
      (bitAt fullChannel 1 0 = true → 256 ≤ u16 fullChannel 2 ∧ u16 fullChannel 2 ≤ 2560 ∧ 256 ≤ u16 fullChannel 4 ∧
        u16 fullChannel 4 ≤ 1600) ∧ (3 : Link).val = (3 : Channel).val) ∧
      Waits 12 0x24 [7, 1, 0, 0x40, 65] (asks 12 0x24 [7, 1, 0, 0x40, 65] R) ∧ [(7 : Byte), 1, 0, 0x40, 65].length = 5 ∧
      (bitAt [7, 1, 0, 0x40, 65] 0 0 || bitAt [7, 1, 0, 0x40, 65] 0 1 || bitAt [7, 1, 0, 0x40, 65] 0 2) = true ∧
      (bitAt [7, 1, 0, 0x40, 65] 0 0 = true → u8 [7, 1, 0, 0x40, 65] 1 ≤ 1) := by decide +kernel

/-- A channel of 12, an empty mask, a raster of 255, a floor mode of 2; another channel. -/
theorem witness_StageChannelAndFloorPresent_refused :
    (∀ p ∈ [12 :: fullChannel.tail, [3, 0] ++ fullChannel.drop 2, [3, 1, 0xFF, 0] ++ fullChannel.drop 4],
      Asked 3 0x23 p ∧ p.length = 14 ∧ (12 ≤ u8 p 0 ∨ (bitAt p 1 0 || bitAt p 1 1 || bitAt p 1 2) = false ∨
        (bitAt p 1 0 = true ∧ (u16 p 2 < 256 ∨ 2560 < u16 p 2 ∨ u16 p 4 < 256 ∨ 1600 < u16 p 4)))) ∧
      Asked 4 0x23 fullChannel ∧ (4 : Link).val ≠ u8 fullChannel 0 ∧
      ∀ p ∈ [[(0xF8 : Byte), 0, 0, 0, 0], [1, 2, 0, 0, 0]], Asked 12 0x24 p ∧ p.length = 5 ∧
        ((bitAt p 0 0 || bitAt p 0 1 || bitAt p 0 2) = false ∨ (bitAt p 0 0 = true ∧ 1 < u8 p 1)) := by decide +kernel

/-- 256 entries of the input LUT that end at entry 1023. -/
def fullInputLut : List Byte := [0, 0, 3, 0, 1] ++ List.replicate 512 0xFF

/-- One entry at 1024 of the green output LUT of channel 11. -/
def lastOutputEntry : List Byte := [35, 0, 4, 1, 0, 0xD0, 7]

theorem witness_StageLutPresents :
    (Waits 12 0x25 fullInputLut (asks 12 0x25 fullInputLut R) ∧ fullInputLut.length = 5 + 2 * u16 fullInputLut 3 ∧
      u8 fullInputLut 0 = 0 ∧ 1 ≤ u16 fullInputLut 3 ∧ u16 fullInputLut 3 ≤ 256 ∧
      u16 fullInputLut 1 + u16 fullInputLut 3 ≤ 1024) ∧
      Waits 11 0x25 lastOutputEntry (asks 11 0x25 lastOutputEntry R) ∧
      lastOutputEntry.length = 5 + 2 * u16 lastOutputEntry 3 ∧ u8 lastOutputEntry 0 = 1 + 3 * (11 : Channel).val + 1 ∧
      1 ≤ u16 lastOutputEntry 3 ∧ u16 lastOutputEntry 1 + u16 lastOutputEntry 3 ≤ 1025 := by decide +kernel

/-- A target of 37, a count of 0, a run past each table; the input LUT and another channel's from a tile link. -/
theorem witness_StageLutPresents_refused :
    let right := fun p : List Byte => p.length = 5 + 2 * u16 p 3
    (∀ p ∈ [37 :: lastOutputEntry.tail, [35, 0, 0, 0, 0]], Asked 11 0x25 p ∧ right p ∧
      (37 ≤ u8 p 0 ∨ u16 p 3 = 0 ∨ 256 < u16 p 3)) ∧
      (∀ p ∈ [0 :: lastOutputEntry.tail, [35, 1, 4] ++ lastOutputEntry.drop 3], Asked 11 0x25 p ∧ right p ∧
        (if u8 p 0 = 0 then 1024 else 1025) < u16 p 1 + u16 p 3) ∧
      Asked 11 0x25 fullInputLut ∧ Asked 3 0x25 lastOutputEntry ∧ (u8 lastOutputEntry 0 - 1) / 3 ≠ (3 : Link).val := by
  decide +kernel

theorem witness_TurnAdmitsOrRefuses :
    twoPresent.resetHeld = false ∧
      twoPresent.ports[(7 : Link)].inProcess =
        some { kind := 0x23, record := { betaRecord with origin := 7 }, clamped := false } ∧
      (∀ l' : Link, twoPresent.ports[l'].inProcess.isSome = true →
        ((7 : Link).val + 13 - twoPresent.staging.pointer.val) % 13 ≤ (l'.val + 13 - twoPresent.staging.pointer.val) % 13) ∧
      ∀ l : Link, R.ports[l].inProcess = none := by decide +kernel

theorem witness_DiscardRemovesByOrigin :
    ((2 : Link) ≠ 12 ∧ Waits 2 0x26 [] (asks 2 0x26 [] discardState)) ∧
      ∀ b ∈ [(255 : Byte), 0, 12, 13, 254], Waits 12 0x26 [b] (asks 12 0x26 [b] discardState) := by decide +kernel

theorem witness_CommitBegins : Waits 12 0x30 [] (asks 12 0x30 [] R) := by decide +kernel

theorem witness_AbortCommitAbandons :
    (Waits 3 0x31 [] (asks 3 0x31 [] R) ∧ R.engine.state = .idle) ∧
      Waits 3 0x31 [] (asks 3 0x31 [] (inPhase .armed (commitOf 3 []) Bank.dark)) ∧
      (inPhase .armed (commitOf 3 []) Bank.dark).engine.state ≠ .idle ∧
      (inPhase .armed (commitOf 3 []) Bank.dark).engine.current = some (commitOf 3 []) := by decide +kernel

theorem witness_ApplyingWritesTheMarkedRecords :
    PhaseAt (inPhase .applying (commitOf 12 []) Bank.dark) .applying (commitOf 12 []) := by decide +kernel

/-- CHECKING of a bank. -/
def checking (b : Bank) : State := inPhase .checking (commitOf 12 []) b

theorem witness_CheckingWalksTheSeams :
    PhaseAt (checking (seamBank lit lit 1 1)) .checking (commitOf 12 []) ∧
      (checking (seamBank lit lit 1 1)).tables.shadow.poolOccupancy ≤ 2048 ∧
      ((checking (seamBank lit lit 1 1)).tables.shadow.claims.map fun q => (q.channel, q.node)).Nodup ∧
      (∀ q ∈ (checking (seamBank lit lit 1 1)).tables.shadow.claims,
        ((checking (seamBank lit lit 1 1)).tables.shadow.node q.channel q.node).isVoid = false) := by decide +kernel

/-- A seam of channels 0 and 1 with `n` points, all at nodes 0. -/
def pointsAtZero (n : Nat) : Seam :=
  { members := [0, 1], points := List.replicate n [{ node := 0, coverage := 1 }, { node := 0, coverage := 1 }] }

/-- A bank of 22 seams of 96 points: 2112 points. -/
def fullPool : Bank :=
  { Bank.dark with seams := Vector.ofFn fun i => if i.val < 22 then some (pointsAtZero 96) else none }

theorem witness_CheckingWalksTheSeams_pool :
    PhaseAt (checking fullPool) .checking (commitOf 12 []) ∧ 2048 < (checking fullPool).tables.shadow.poolOccupancy := by
  decide +kernel

/-- Two points of one seam at the same nodes. -/
def twiceClaimed : Bank := { seamBank lit lit 1 1 with seams := put Bank.dark.seams 0 (some (pointsAtZero 2)) }

theorem witness_CheckingWalksTheSeams_void :
    let s := checking (seamBank lit Node.dark 1 1)
    s.tables.shadow.claims = [{ ref := ⟨0, 0⟩, channel := 0, node := 0 }] ++ { ref := ⟨0, 0⟩, channel := 1, node := 0 } :: [] ∧
      (s.tables.shadow.node 0 0).isVoid = false ∧ (s.tables.shadow.node 1 0).isVoid = true := by decide +kernel

theorem witness_CheckingWalksTheSeams_conflict :
    let s := checking twiceClaimed
    let before : List Claim := [{ ref := ⟨0, 0⟩, channel := 0, node := 0 }, { ref := ⟨0, 0⟩, channel := 1, node := 0 }]
    s.tables.shadow.claims = before ++ { ref := ⟨0, 1⟩, channel := 0, node := 0 } ::
        [{ ref := ⟨0, 1⟩, channel := 1, node := 0 }] ∧
      s.tables.shadow.poolOccupancy ≤ 2048 ∧ (before.map fun r => (r.channel, r.node)).Nodup ∧
      (∀ r ∈ before, (s.tables.shadow.node r.channel r.node).isVoid = false) ∧
      (s.tables.shadow.node 0 0).isVoid = false ∧ ∃ r ∈ before, r.channel = 0 ∧ r.node = 0 := by decide +kernel

theorem witness_SharesRoundDown : (∀ r ∈ [65535, 65535, 65535, 65535], r ≤ 65535) ∧ 0 < [65535, 65535, 65535, 65535].sum := by
  decide

theorem witness_FinalSharesSumToFullWeight :
    2 ≤ [0, 65535, 65535].length ∧ [0, 65535, 65535].length ≤ 4 ∧ 0 < [0, 65535, 65535].sum ∧ 64 ≤ 64 := by decide

/-- The bank of the worked section has one point, at nodes 0 of channels 0 and 1. -/
theorem claims_blackBank (mode : FloorMode) (phi : Nat) : (blackBank mode phi).claims =
    [{ ref := ⟨0, 0⟩, channel := 0, node := 0 }, { ref := ⟨0, 0⟩, channel := 1, node := 0 }] := rfl

/-- In that bank every claimed node is non-VOID and refers to its point, and no other node refers to one. -/
theorem walked_blackBank (mode : FloorMode) (phi : Nat) : Walked (blackBank mode phi) where
  distinct := by rw [claims_blackBank]; decide
  claimed := by
    intro q hq
    rw [claims_blackBank] at hq
    simp only [List.mem_cons, List.not_mem_nil, or_false] at hq
    rcases hq with rfl | rfl <;> exact ⟨rfl, rfl⟩
  others := by
    intro c i h
    refine Bank.node_of_entries (P := fun n => n.seamRef = none) _ c i rfl fun e he hei => ?_
    rw [claims_blackBank] at h
    fin_cases c
    · have : e ∈ [(0, member 1365)] := he
      simp only [List.mem_singleton] at this
      subst this
      exact absurd ⟨rfl, hei⟩ (h { ref := ⟨0, 0⟩, channel := 0, node := 0 } (by simp))
    · have : e ∈ [(0, member 2731)] := he
      simp only [List.mem_singleton] at this
      subst this
      exact absurd ⟨rfl, hei⟩ (h { ref := ⟨0, 0⟩, channel := 1, node := 0 } (by simp))
    all_goals exact absurd he List.not_mem_nil

theorem witness_NormalizingWritesWeights :
    PhaseAt (inPhase .normalizing (commitOf 12 []) (blackBank .auto 0)) .normalizing (commitOf 12 []) ∧
      (∀ q ∈ (inPhase .normalizing (commitOf 12 []) (blackBank .auto 0)).tables.shadow.points, q.coverages.sum ≠ 0) ∧
      Walked (inPhase .normalizing (commitOf 12 []) (blackBank .auto 0)).tables.shadow :=
  have h : PhaseAt (inPhase .normalizing (commitOf 12 []) (blackBank .auto 0)) .normalizing (commitOf 12 []) ∧
      ∀ q ∈ (blackBank .auto 0).points, q.coverages.sum ≠ 0 := by decide +kernel
  ⟨h.1, h.2, walked_blackBank .auto 0⟩

theorem witness_NormalizingWritesWeights_zero :
    PhaseAt (inPhase .normalizing (commitOf 12 []) (seamBank lit lit 0 0)) .normalizing (commitOf 12 []) ∧
      (inPhase .normalizing (commitOf 12 []) (seamBank lit lit 0 0)).tables.shadow.points =
        [] ++ { seam := 0, point := 0, members := [(0, { node := 0, coverage := 0 }), (1, { node := 0, coverage := 0 })] } :: [] ∧
      (PointAt.coverages { seam := 0, point := 0
                           members := [(0, { node := 0, coverage := 0 }), (1, { node := 0, coverage := 0 })] }).sum = 0 := by
  decide +kernel

theorem witness_FlooringSetsTheFloor :
    PhaseAt (inPhase .flooring (commitOf 12 []) (blackBank .auto 0)) .flooring (commitOf 12 []) ∧
      (inPhase .flooring (commitOf 12 []) (blackBank .auto 0)).tables.shadow.wf = true ∧
      (blackBank .auto 0).sky.floorMode = .auto ∧ (blackBank .fixed 0).sky.floorMode = .fixed ∧
      ((blackBank .auto 0).node 0 0).isVoid = false := by decide +kernel

/-- The commit of the worked section in LIFTING: channel 1 leads. -/
def liftingCommit : CurrentCommit := commitOf 12 [{ seam := 0, point := 0, position := 1 }]

theorem witness_LiftingArmsTheCommit :
    PhaseAt (inPhase .lifting liftingCommit (blackBank .auto 390)) .lifting liftingCommit ∧
      Walked (inPhase .lifting liftingCommit (blackBank .auto 390)).tables.shadow ∧
      liftingCommit.leads = (inPhase .lifting liftingCommit (blackBank .auto 390)).tables.shadow.leads ∧
      (∀ p ∈ (inPhase .lifting liftingCommit (blackBank .auto 390)).tables.shadow.points, p.coverages.sum ≠ 0) ∧
      (blackBank .auto 390).wf = true :=
  have h : PhaseAt (inPhase .lifting liftingCommit (blackBank .auto 390)) .lifting liftingCommit ∧
      liftingCommit.leads = (blackBank .auto 390).leads ∧ (∀ p ∈ (blackBank .auto 390).points, p.coverages.sum ≠ 0) ∧
      (blackBank .auto 390).wf = true := by decide +kernel
  ⟨h.1, walked_blackBank .auto 390, h.2⟩

/-- A receiver with its ranges kept. -/
theorem receiverOk_of {r : Receiver}
    (h : (r.banks.toList.filter fun b => decide (b.state = .shown)).length = 1 ∧
      (r.banks.toList.filter fun b => decide (b.state = .ready)).length ≤ 1 ∧
      (r.banks.toList.filter fun b => decide (b.state = .filling)).length = (if r.state = .receiving then 1 else 0) ∧
      (r.lossCount ≤ 15 ∧ (r.state ≠ .lost → r.lossCount ≤ 14)) ∧ r.lineCount ≤ 65535 ∧ ∀ i : Fin 3, r.banks[i].wf = true) :
    ReceiverOk r :=
  ⟨h.1, h.2.1, h.2.2.1, h.2.2.2.1, h.2.2.2.2.1, h.2.2.2.2.2⟩

theorem witness_HeaderStartsFilling :
    R.resetHeld = false ∧ ReceiverOk R.receivers[(7 : Channel)] ∧ ReceiverOk (receiving 7 100 R).receivers[(7 : Channel)] :=
  ⟨rfl, receiverOk_of (by decide +kernel), receiverOk_of (by decide +kernel)⟩

theorem witness_LineFillsItsRow :
    ReceiverOk (receiving 4 65535 R).receivers[(4 : Channel)] ∧
      (receiving 4 65535 R).receivers[(4 : Channel)].state = .receiving ∧
      ((receiving 4 65535 R).receivers[(4 : Channel)].banks[(1 : Fin 3)]).state = .filling ∧
      R.receivers[(4 : Channel)].state ≠ .receiving :=
  ⟨receiverOk_of (by decide +kernel), by decide +kernel⟩

theorem witness_FrameEndJudges :
    ReceiverOk (receiving 4 1080 R).receivers[(4 : Channel)] ∧ (receiving 4 1080 R).resetHeld = false ∧
      (receiving 4 1080 R).receivers[(4 : Channel)].state = .receiving ∧
      ((receiving 4 1080 R).receivers[(4 : Channel)].banks[(1 : Fin 3)]).state = .filling ∧
      ¬ (((receiving 4 1080 R).receivers[(4 : Channel)].banks[(1 : Fin 3)]).malformed = true ∨
        (receiving 4 1080 R).receivers[(4 : Channel)].lineCount ≠
          ((receiving 4 1080 R).tables.active.records[(4 : Channel)]).height) :=
  ⟨receiverOk_of (by decide +kernel), by decide +kernel⟩

/-- OUTPUT_FRAME_START takes a frame start outside LOCKED. -/
theorem outputFrameStart_taken {s : State} (h : s.resetHeld = false ∧ s.timing.state ≠ .locked) :
    FrameStartTaken s (.outputFrameStart race) race := ⟨rfl, h⟩

/-- A frame start is taken by each of the seven commands that can take one. -/
theorem witness_FrameStartMovesEveryBlock :
    FrameStartTaken R (.outputFrameStart race) race ∧ FrameStartTaken locked (.substituteFrameStart race) race ∧
      FrameStartTaken R (.eligibleFrameStart race) race ∧ FrameStartTaken forcedState (.forcedRelease race) race ∧
      FrameStartTaken stallState (.stall 1 race) race ∧ FrameStartTaken silentState (.inputLost 7 race) race ∧
      FrameStartTaken locked (.refEdge 116683352 race) race := by
  repeat' apply And.intro
  all_goals first | rfl | decide +kernel

/-- And by none of the six that name one, where none is due. -/
theorem witness_FrameStartMovesEveryBlock_none :
    ¬ FrameStartTaken locked (.outputFrameStart race) race ∧ ¬ FrameStartTaken R (.substituteFrameStart race) race ∧
      ¬ FrameStartTaken (withBarrier (fun b => { b with cadence := 1 }) R) (.eligibleFrameStart race) race ∧
      ¬ FrameStartTaken R (.forcedRelease race) race ∧ ¬ FrameStartTaken R (.stall 1 race) race ∧
      ¬ FrameStartTaken R (.inputLost 7 race) race := by
  refine ⟨?_, ?_, ?_, ?_, ?_, ?_⟩
  all_goals
    rintro ⟨-, h⟩
    revert h
    decide +kernel

/-- Every outcome of the decision: not eligible, P empty, a normal and a forced release, a hold. -/
theorem witness_BarrierDecides :
    (withBarrier (fun b => { b with cadence := 3 }) R).barrier.cadence ≠ 0 ∧ (∀ c, ¬ InP R c) ∧
      (ReleaseDue twoReady ∧ ∀ c, InP twoReady c → Ready twoReady c) ∧
      (ReleaseDue forcedState ∧ ∃ c, InP forcedState c ∧ ¬ Ready forcedState c) ∧
      (∃ c, InP (enrolled 1 R) c) ∧ ¬ ReleaseDue (enrolled 1 R) := by decide +kernel

theorem witness_SwapTakenWhole :
    FrameStartTaken rasterState (.outputFrameStart race) race ∧ SwapDue rasterState (commitOf 5 []) :=
  ⟨outputFrameStart_taken (by decide +kernel), by decide +kernel⟩

/-- Channel 2 with a raster-changing swap, and not enrolled. -/
def freeRunning : State := { rasterState with barrier := R.barrier }

/-- The cases of a channel: ready at a release, late at a forced one, at a hold, stalled; not enrolled with a READY bank,
promoted or freed by a raster change, and without one. -/
theorem witness_ChannelsLateAndStalled :
    (InP forcedState 0 ∧ Ready forcedState 0 ∧ ReleaseDue forcedState) ∧
      (InP stallState 1 ∧ ¬ Ready stallState 1 ∧ ReleaseDue stallState) ∧
      (InP (enrolled 1 R) 1 ∧ ¬ ReleaseDue (enrolled 1 R)) ∧
      (let s := withBarrier (fun b => { b with channels := upd b.channels 2 fun k => { k with enrolled := true, stalled := true } }) R
       (s.barrier.channels[(2 : Channel)]).enrolled = true ∧ (s.barrier.channels[(2 : Channel)]).stalled = true) ∧
      ((R.barrier.channels[(5 : Channel)]).enrolled = false ∧ ¬ Ready R 5) ∧
      HandsBack race (readyWith 5 9 R) 5 9 ∧ (freeRunning.barrier.channels[(2 : Channel)]).enrolled = false ∧
      RasterSwap freeRunning 2 ∧ Before rasterFirst.receivers[(2 : Channel)] .raster .promote := by
  refine ⟨?_, ?_, ?_, ?_, ?_, ?_, ?_, ?_, ?_⟩ <;> decide +kernel

/-- The receivers of those channels are sound. -/
theorem witness_ChannelsLateAndStalled_sound :
    ReceiverOk (readyWith 5 9 R).receivers[(5 : Channel)] ∧ ReceiverOk freeRunning.receivers[(2 : Channel)] :=
  ⟨receiverOk_of (by decide +kernel), receiverOk_of (by decide +kernel)⟩

/-- With a raster-changing swap and without one; promoted before the raster change and after it; a FILLING bank freed. -/
theorem witness_PromotionAndRasterChange :
    (FrameStartTaken rasterState (.outputFrameStart race) race ∧ FrameStartTaken twoReady (.outputFrameStart race) race) ∧
      (ReceiverOk rasterState.receivers[(2 : Channel)] ∧ ReceiverOk twoReady.receivers[(1 : Channel)]) ∧
      RasterSwap rasterState 2 ∧ PromotionDue rasterState 2 ∧ rasterState.receivers[(2 : Channel)].state = .receiving ∧
      Before race.receivers[(2 : Channel)] .promote .raster ∧ ¬ Before rasterFirst.receivers[(2 : Channel)] .promote .raster ∧
      ¬ RasterSwap twoReady 1 ∧ PromotionDue twoReady 1 ∧ LostNow race silentState 7 ∧
      (silentState.receivers[(7 : Channel)].banks[(1 : Fin 3)]).state = .filling :=
  ⟨⟨outputFrameStart_taken (by decide +kernel), outputFrameStart_taken (by decide +kernel)⟩,
   ⟨receiverOk_of (by decide +kernel), receiverOk_of (by decide +kernel)⟩,
   by refine ⟨?_, ?_, ?_, ?_, ?_, ?_, ?_, ?_, ?_⟩ <;> decide +kernel⟩

/-- At a limit of 1 with the header taken together with the frame start, and without. -/
theorem witness_LossCountSteps_together :
    FrameStartTaken justBegun (.outputFrameStart headersFirst) headersFirst ∧
      ReceiverOk justBegun.receivers[(7 : Channel)] ∧ HeaderFirst headersFirst justBegun 7 ∧
      justBegun.receivers[(7 : Channel)].state ≠ .lost ∧ ¬ LostNow headersFirst justBegun 7 ∧ LostNow race justBegun 7 ∧
      ¬ FrameStartTaken justBegun (.inputLost 7 headersFirst) headersFirst :=
  ⟨⟨rfl, by decide +kernel⟩, receiverOk_of (by decide +kernel), by decide +kernel, by decide +kernel, by decide +kernel,
   by decide +kernel, fun h => absurd h.2.2.2 (by decide +kernel)⟩

/-- Below the limit, at it, LOST, and RECEIVING under a raster change. -/
theorem witness_LossCountSteps :
    FrameStartTaken silentState (.outputFrameStart race) race ∧ ReceiverOk silentState.receivers[(7 : Channel)] ∧
      ReceiverOk (idleInput 7 2 R).receivers[(7 : Channel)] ∧ LostNow race silentState 7 ∧
      (idleInput 7 2 R).receivers[(7 : Channel)].state ≠ .lost ∧ ¬ LostNow race (idleInput 7 2 R) 7 ∧
      R.receivers[(7 : Channel)].state = .lost ∧ RasterSwap rasterState 2 ∧ ¬ LostNow race rasterState 2 :=
  ⟨outputFrameStart_taken (by decide +kernel), receiverOk_of (by decide +kernel), receiverOk_of (by decide +kernel),
   by decide +kernel⟩

/-- Channels 0 and 1 ready with tags 708 and 707. -/
def skewState : State := readyWith 1 707 (readyWith 0 708 (enrolled 1 (enrolled 0 R)))

/-- A part whose barrier and receivers lie in their ranges. -/
theorem framesSound_of {s : State}
    (h : (∀ c : Channel, (s.receivers[c].banks.toList.filter fun b => decide (b.state = .shown)).length = 1 ∧
        (s.receivers[c].banks.toList.filter fun b => decide (b.state = .ready)).length ≤ 1 ∧
        (s.receivers[c].banks.toList.filter fun b => decide (b.state = .filling)).length =
          (if s.receivers[c].state = .receiving then 1 else 0) ∧
        (s.receivers[c].lossCount ≤ 15 ∧ (s.receivers[c].state ≠ .lost → s.receivers[c].lossCount ≤ 14)) ∧
        s.receivers[c].lineCount ≤ 65535 ∧ ∀ i : Fin 3, s.receivers[c].banks[i].wf = true) ∧
      (∀ c : Channel, (s.barrier.channels[c]).lateCount ≤ 15) ∧
      (∀ c : Channel, (s.barrier.channels[c]).stalled = true → (s.barrier.channels[c]).enrolled = true) ∧
      (1 ≤ s.barrier.reload ∧ s.barrier.reload ≤ 4) ∧ s.barrier.cadence ≤ 3 ∧ s.barrier.waitCount ≤ 65535 ∧
      (s.barrier.timeout ≤ 255 ∧ s.barrier.stallLimit ≤ 15 ∧ 1 ≤ s.barrier.lossLimit ∧ s.barrier.lossLimit ≤ 15)) :
    FramesSound s :=
  ⟨fun c => receiverOk_of (h.1 c), h.2.1, h.2.2.1, h.2.2.2.1, h.2.2.2.2.1, h.2.2.2.2.2.1, h.2.2.2.2.2.2⟩

theorem witness_TagSkewCounted :
    FrameStartTaken skewState (.outputFrameStart race) race ∧ FramesSound skewState ∧
      (∀ c tag, InP skewState c → HandsBack race skewState c tag → (0 : Channel).val ≤ c.val) ∧
      ReleaseDue skewState ∧ InP skewState 0 ∧ HandsBack race skewState 0 708 ∧ SkewedFrom race skewState 708 1 707 :=
  ⟨outputFrameStart_taken (by decide +kernel), framesSound_of (by decide +kernel), fun c _ _ _ => Nat.zero_le c.val,
   by refine ⟨?_, ?_, ?_, ?_⟩ <;> decide +kernel⟩

/-- No release; a release with nothing ready; a release that swaps a raster change in. -/
theorem witness_TagSkewCounted_none :
    let s := withBarrier (fun b => { b with waitCount := 1 }) (enrolled 1 R)
    ¬ ReleaseDue R ∧ ReleaseDue s ∧ (∀ c tag, InP s c → ¬ HandsBack race s c tag) ∧ FramesSound s ∧
      (FramesSound rasterState ∧ ReleaseDue rasterState ∧ HandsBack race rasterState 2 78) :=
  ⟨by decide +kernel, by decide +kernel,
   fun c _ _ h => (by decide +kernel : ∀ c, ¬ Ready (withBarrier (fun b => { b with waitCount := 1 }) (enrolled 1 R)) c) c h.1.2,
   framesSound_of (by decide +kernel), framesSound_of (by decide +kernel), by decide +kernel⟩

/-- A late channel and a ready one at a forced release. -/
theorem witness_ReleaseNoticesQueued :
    FrameStartTaken forcedState (.outputFrameStart race) race ∧ FramesSound forcedState ∧ ReleaseDue forcedState ∧
      (forcedState.barrier.channels[(0 : Channel)]).enrolled = true ∧ InP forcedState 0 ∧ Ready forcedState 0 ∧
      InP forcedState 1 ∧ ¬ Ready forcedState 1 ∧ HandsBack race forcedState 0 702 :=
  ⟨outputFrameStart_taken (by decide +kernel), framesSound_of (by decide +kernel), by decide +kernel⟩

theorem witness_EnrollmentChanges :
    (Waits 11 0x40 [0, 8] (asks 11 0x40 [0, 8] R) ∧ 0 < u16 [0, 8] 0 ∧ u16 [0, 8] 0 < 4096 ∧ u16 [0, 8] 0 = 2 ^ (11 : Link).val) ∧
      Waits 12 0x41 [0xFF, 0x0F] (asks 12 0x41 [0xFF, 0x0F] (enrolled 3 R)) ∧ u16 [0xFF, 0x0F] 0 = 4095 ∧
      (∀ p ∈ [[(0 : Byte), 0], [0, 16]], Asked 11 0x40 p ∧ (u16 p 0 = 0 ∨ 4096 ≤ u16 p 0)) ∧
      Asked 11 0x41 [1, 8] ∧ u16 [1, 8] 0 ≠ 2 ^ (11 : Link).val := by decide +kernel

theorem witness_BarrierSettings :
    (Waits 12 0x42 [15, 0, 1, 16, 1, 0xFF, 0x0F, 1] (asks 12 0x42 [15, 0, 1, 16, 1, 0xFF, 0x0F, 1] R) ∧
      0 < u8 [15, 0, 1, 16, 1, 0xFF, 0x0F, 1] 4 ∧ u16 [15, 0, 1, 16, 1, 0xFF, 0x0F, 1] 5 = 4095 ∧
      u8 [15, 0, 1, 16, 1, 0xFF, 0x0F, 1] 7 ≤ 1) ∧
      (∀ b ∈ [(1 : Byte), 4], Asked 12 0x43 [b] ∧ 1 ≤ u8 [b] 0 ∧ u8 [b] 0 ≤ 4) ∧
      (∀ b ∈ [(0 : Byte), 5], Asked 12 0x43 [b] ∧ (u8 [b] 0 = 0 ∨ 4 < u8 [b] 0)) ∧
      ∀ p ∈ [[(0xF0 : Byte), 0, 0, 0, 1, 1, 0, 0], [4, 0, 0, 0, 0, 0, 0, 0], [8, 0, 0, 0, 0, 0, 16, 0], [8, 0, 0, 0, 0, 1, 0, 2]],
        Asked 12 0x42 p ∧ ((bitAt p 0 0 || bitAt p 0 1 || bitAt p 0 2 || bitAt p 0 3) = false ∨
          (bitAt p 0 2 = true ∧ u8 p 4 = 0) ∨ (bitAt p 0 3 = true ∧ (u16 p 5 = 0 ∨ 4096 ≤ u16 p 5 ∨ 1 < u8 p 7))) := by
  decide +kernel

theorem witness_FadeAndOutputsSet :
    Waits 12 0x50 [1, 0x10, 0, 0x10] (asks 12 0x50 [1, 0x10, 0, 0x10] R) ∧
      Waits 12 0x51 [0xFF, 0x0F] (asks 12 0x51 [0xFF, 0x0F] R) ∧ Waits 12 0x52 [1, 0] (asks 12 0x52 [1, 0] R) ∧
      u16 [0xFF, 0x0F] 0 = 4095 ∧ u16 [1, 0] 0 = 1 ∧
      ∀ p ∈ [[(0 : Byte), 0], [0, 16]], Asked 12 0x51 p ∧ Asked 12 0x52 p ∧ (u16 p 0 = 0 ∨ 4096 ≤ u16 p 0) := by
  decide +kernel

theorem witness_SetTimingSelects :
    ∀ p ∈ [[(1 : Byte), 0], [0, 24], [0, 144]], Waits 12 0x53 p (asks 12 0x53 p R) ∧ p.length = 2 ∧
      (u8 p 0 = 1 ∨ (u8 p 0 = 0 ∧ 24 ≤ u8 p 1 ∧ u8 p 1 ≤ 144)) := by decide +kernel

/-- Values out of range; and a moment just passed, and just not. -/
theorem witness_SetTimingSelects_more :
    (∀ p ∈ [[(2 : Byte), 24], [0, 23], [0, 145]], Asked 12 0x53 p ∧ p.length = 2 ∧
      (1 < u8 p 0 ∨ (u8 p 0 = 0 ∧ (u8 p 1 < 24 ∨ 144 < u8 p 1)))) ∧
      R.timing.lastFrameStart + 1000000000 / u8 [0, 24] 1 < max R.timing.clock (takenAt 41666667).time ∧
      ¬ R.timing.lastFrameStart + 1000000000 / u8 [0, 24] 1 < max R.timing.clock (takenAt 41666666).time := by
  decide +kernel

theorem witness_SetRasterChecked :
    ∀ p ∈ [[(0x80 : Byte), 2, 0xE0, 1], [0x7F, 2, 0xE0, 1], [0, 10, 0x40, 6]], Waits 12 0x54 p (asks 12 0x54 p R) := by
  decide +kernel

/-- An edge that starts no frame: in ACQUIRE, out of tolerance in LOCKED, in HOLDOVER. -/
theorem witness_RefEdgesMeasured :
    (R.timing.source = .internal) ∧
      (let s := withTiming (fun t => { t with source := .external, state := .acquire }) R
       s.timing.source = .external ∧ s.timing.lastEdge = none) ∧
      (locked.resetHeld = false ∧ locked.timing.source = .external ∧ locked.timing.lastEdge = some 100000000 ∧
        ¬ FrameStartTaken locked (.refEdge 116800000 race) race) ∧
      (let s := withTiming (fun t => { t with substituted := true }) locked
       s.timing.state = .locked ∧ s.timing.substituted = true ∧ s.timing.lastEdge = some 100000000) := by
  refine ⟨rfl, ⟨rfl, rfl⟩, ⟨rfl, rfl, rfl, ?_⟩, rfl, rfl, rfl⟩
  rintro ⟨-, -, -, -, -, e, he, -, -, h, -⟩
  have he' : some 100000000 = some e := he
  cases he'
  exact absurd h (by decide +kernel)

/-- A frame in progress at its first pixel, and one at its end. -/
theorem witness_PixelDelivered :
    (picture false).engines[(3 : Channel)].context = some { bankIsB := false, shown := 0, fade := 4096, dark := false
                                                            width := 640, height := 480, contentOff := false } ∧
      (picture false).engines[(3 : Channel)].y < 480 ∧ R.engines[(3 : Channel)].context = none ∧
      (let t := { picture false with engines := upd (picture false).engines 3 fun e => { e with y := 480 } }
       t.resetHeld = false ∧ t.engines[(3 : Channel)].context.map FrameContext.height = some 480 ∧
        480 ≤ t.engines[(3 : Channel)].y) := by decide +kernel

theorem witness_InterpolationStaysBetweenCorners :
    let q : Corners Int := { q00 := -1, q10 := 0, q01 := -1, q11 := 0 }
    weighted (coefficients 64 (31 % 64) (0 % 64)) q + 2048 = -64 ∧
      weighted (coefficients 64 (32 % 64) (0 % 64)) q = 4096 * (-1) + 2048 ∧
      ((-1 : Int) ≤ q.q00 ∧ (-1 : Int) ≤ q.q10 ∧ q.q00 ≤ 0 ∧ q.q10 ≤ 0) ∧ 64 % 64 = 0 := by decide +kernel

theorem witness_ModeAndNoticeMask :
    (∀ b ∈ [(0 : Byte), 1, 2], Waits 12 0x60 [b] (asks 12 0x60 [b] R)) ∧
      ∀ b ∈ [(0 : Byte), 15, 16], Waits 5 0x62 [b] (asks 5 0x62 [b] R) := by decide +kernel

theorem witness_RestartResets :
    let s := asks 12 0x61 [] { twoPresent with engine := (inPhase .lifting (commitOf 3 []) Bank.dark).engine }
    Waits 12 0x61 [] s ∧ s.engine.state ≠ .idle ∧ s.engine.current = some (commitOf 3 []) ∧
      noticeCount s.ports[(3 : Link)].outbound < 15 ∧ s.ports[(7 : Link)].inProcess.isSome = true := by decide +kernel

theorem witness_TablesReadBack :
    (∀ p ∈ [[(0 : Byte), 11, 0, 0, 1], [1, 0, 0xEA, 3, 64]], Waits 3 0x70 p (asks 3 0x70 p R) ∧ p.length = 5 ∧ u8 p 0 ≤ 1 ∧
      1 ≤ u8 p 4 ∧ u8 p 4 ≤ 64 ∧ u16 p 2 + u8 p 4 ≤ 1066) ∧
      (∀ p ∈ [[(0 : Byte), 47], [1, 0]], Waits 3 0x71 p (asks 3 0x71 p R) ∧ p.length = 2 ∧ u8 p 0 ≤ 1 ∧ u8 p 1 < 48) ∧
      (inPhase .armed (commitOf 12 []) Bank.dark).engine.state = .armed := by decide +kernel

theorem witness_TablesReadBack_refused :
    let bad := fun p : List Byte => 1 < u8 p 0 ∨ 12 ≤ u8 p 1 ∨ u8 p 4 = 0 ∨ 64 < u8 p 4
    (∀ p ∈ [[(2 : Byte), 0, 0, 0, 1], [0, 12, 0, 0, 1], [0, 0, 0, 0, 0], [0, 0, 0, 0, 65]], Asked 3 0x70 p ∧ bad p) ∧
      (let p := [(0 : Byte), 0, 0x2A, 4, 1]
       Asked 3 0x70 p ∧ ¬ bad p ∧ 1066 < u16 p 2 + u8 p 4) ∧
      ∀ p ∈ [[(2 : Byte), 0], [0, 48]], Asked 3 0x71 p ∧ (1 < u8 p 0 ∨ 48 ≤ u8 p 1) := by decide +kernel

theorem witness_StatusRecords :
    ∀ b ∈ [(255 : Byte), 0, 11, 12, 254], Waits 3 0x72 [b] (asks 3 0x72 [b] R) := by decide +kernel

theorem witness_CountersReadBack :
    ∀ p ∈ [[(0 : Byte), 0, 0], [0, 0, 33], [125, 0, 32], [126, 0, 32], [49, 0, 8], [0, 0, 12]],
      Waits 5 0x73 p (asks 5 0x73 p R) ∧ p.length = 3 := by decide +kernel

theorem witness_LinkBytesReceived : R.resetHeld = false ∧ R.ports[(4 : Link)].line = .isOpen := by decide +kernel

theorem witness_FramedMessageArrives :
    R.resetHeld = false ∧ R.ports[(4 : Link)].line = .isOpen ∧ R.ports[(4 : Link)].rx = .hunt ∧
      (List.replicate 2048 (0xA5 : Byte)).length ≤ 2048 := by decide +kernel

theorem witness_LinkEvents :
    (R.resetHeld = false ∧ R.ports[(4 : Link)].line = .isOpen) ∧ (brokenLine 4 R).ports[(4 : Link)].line = .broken ∧
      0 < 1 ∧ fullQueue.ports[(12 : Link)].line = .isOpen ∧
      fullQueue.ports[(12 : Link)].outbound = .notice (summaryOf 101) :: fullQueue.ports[(12 : Link)].outbound.tail := by
  decide +kernel

/-- 15 summaries are queued; a summary finds the newest, a TIMING notice none. -/
def alikeQueue : State := queued 12 (List.replicate 15 (.notice (summaryOf 115))) R

theorem witness_NoticeJudged_append :
    let p := alikeQueue.ports[(12 : Link)]
    (R.ports[(3 : Link)].mask.admits .timing = false ∧ R.ports[(12 : Link)].mask.admits .timing = true ∧
      noticeCount R.ports[(12 : Link)].outbound < 15) ∧
      p.mask.admits .release = true ∧ 15 ≤ noticeCount p.outbound ∧
      p.outbound = List.replicate 14 (.notice (summaryOf 115)) ++ .notice (summaryOf 115) :: [] ∧
      (summaryOf 115).body.kind = .release ∧
      (summaryOf 115).channel = noticeChannel 12 (.summary 116 false 0 0 false) := by decide +kernel

theorem witness_NoticeJudged_drop :
    alikeQueue.ports[(12 : Link)].mask.admits .timing = true ∧ 15 ≤ noticeCount alikeQueue.ports[(12 : Link)].outbound ∧
      ∀ n, OutMessage.notice n ∈ (if 0 < alikeQueue.ports[(12 : Link)].sent then alikeQueue.ports[(12 : Link)].outbound.tail
          else alikeQueue.ports[(12 : Link)].outbound) →
        ¬ (n.body.kind = .timing ∧ n.channel = noticeChannel 12 (.timing .holdover .locked .external 16683348)) := by
  refine ⟨by decide +kernel, by decide +kernel, fun n hn => ?_⟩
  have hn' : OutMessage.notice n ∈ List.replicate 15 (OutMessage.notice (summaryOf 115)) := hn
  cases List.eq_of_mem_replicate hn'
  exact fun h => absurd h.1 (by decide)

/-- A part at work for the invariants: an armed commit over the worked section, a full queue on SL, a request in process on
TL1, channel 7 receiving, locked to house sync, with a command waiting. -/
def atWork : State :=
  let s := inPhase .armed { commitOf 12 [] with phi := 260 } (blackBank .auto 260)
  let q : Port := { Port.reset 1 with inProcess := some { kind := 0x23, record := betaRecord, clamped := false } }
  { s with
    receivers := silentState.receivers
    barrier := stallState.barrier
    timing := locked.timing
    ports := put fullQueue.ports 1 q
    pending := [.outputFrameStart race] }

/-- The step of that part answers a next state. -/
theorem atWork_steps : step atWork = .next (after (.outputFrameStart race) { atWork with pending := [] }) := rfl

/-- A port with its ranges kept. -/
theorem portOk_of {p : Port} (hr : rxOk p.rx)
    (hs : match p.outbound with
      | [] => p.sent = 0
      | m :: _ => p.sent < m.bytes.length)
    (h : (responsesIn p.outbound).length ≤ 1 ∧ (p.inProcess.isSome = true → responsesIn p.outbound = []) ∧
      noticeCount p.outbound ≤ 15 ∧ bufferRoom p.buffer ≤ 4096 ∧ (∀ m ∈ p.buffer, m.payload.length ≤ 2048) ∧
      (p.line = .broken → p.rx = .hunt ∧ p.buffer = [] ∧ p.inProcess = none)) : PortOk p :=
  ⟨h.1, h.2.1, h.2.2.1, h.2.2.2.1, h.2.2.2.2.1, hr, h.2.2.2.2.2, hs⟩

theorem witness_PortsStaySound : PortsSound atWork := by
  intro l
  fin_cases l
  all_goals exact portOk_of trivial (by first | rfl | (show 0 < _; decide +kernel)) (by decide +kernel)

theorem witness_QueueStaysSound : CommitSound atWork ∧ RolesKept atWork := by
  refine ⟨⟨by decide +kernel, by decide +kernel, by decide +kernel, ?_, ?_⟩, ⟨?_, ?_⟩⟩
  · intro m k hm hk
    cases (show some _ = some m from hm)
    cases (show some _ = some k from hk)
    decide
  · intro m hm
    cases (show some _ = some m from hm)
    decide +kernel
  · intro r hr
    have : r ∈ [betaRecord] := hr
    simp only [List.mem_singleton] at this
    subst this
    exact .inr rfl
  · intro l q h
    fin_cases l
    all_goals first
      | exact nomatch (show none = some q from h)
      | (cases (show some _ = some q from h); exact ⟨rfl, .inr rfl⟩)

theorem witness_FramesAndTimingStaySound : FramesSound atWork ∧ TimingSound atWork := by
  refine ⟨framesSound_of (by decide +kernel), ?_⟩
  constructor
  all_goals decide +kernel

/-- A bank with its ranges kept. -/
theorem bankOk_of {b : Bank} (hs : ∀ i : SeamId, ∀ m, b.seams[i] = some m → seamOk m)
    (h : b.wf = true ∧ (∀ c : Channel, ∀ e ∈ b.grids[c].entries, e.1 < 1066 ∧ nodeOk e.2) ∧
      (∀ c : Channel, recordOk b.records[c]) ∧ (∀ e ∈ b.inputLut.entries, e.1 < 1024 ∧ e.2 ≤ 65535) ∧
      (∀ i : Fin 36, ∀ e ∈ b.outputLuts[i].entries, e.1 < 1025 ∧ e.2 ≤ 1023) ∧
      (b.sky.phiSet ≤ 16383 ∧ b.sky.tau ≤ 64 ∧ b.sky.phi ≤ 16383 ∧ b.sky.headroom = 65535 - b.sky.phi)) : BankOk b :=
  ⟨h.1, h.2.1, h.2.2.1, h.2.2.2.1, h.2.2.2.2.1, hs, h.2.2.2.2.2⟩

/-- The dark defaults lie in their ranges. -/
theorem bankOk_dark : BankOk Bank.dark := by
  refine bankOk_of (fun i m hm => ?_) (by unfold nodeOk recordOk; decide +kernel)
  rw [show Bank.dark.seams[i] = none by simp [Bank.dark]] at hm
  cases hm

/-- So does the bank of the worked section. -/
theorem bankOk_black : BankOk (blackBank .auto 260) := by
  refine bankOk_of (fun i m hm => ?_) (by unfold nodeOk recordOk; decide +kernel)
  fin_cases i
  all_goals first
    | exact nomatch (show none = some m from hm)
    | (cases (show some _ = some m from hm); unfold seamOk; decide +kernel)

/-- Every listed lift of that bank lies within Φ. -/
theorem listedLifts_black : ∀ c : Channel, ∀ e ∈ (blackBank .auto 260).grids[c].entries,
    e.2.lift ≤ (blackBank .auto 260).sky.phi := by decide +kernel

/-- Hence every lift does. -/
theorem lifts_black : LiftsBounded (blackBank .auto 260) := fun c i =>
  Bank.node_of_entries (P := fun n => n.lift ≤ (blackBank .auto 260).sky.phi) _ c i (Nat.zero_le _) fun e he _ =>
    listedLifts_black c e he

theorem witness_PictureStaysSound : PictureSound atWork where
  bankA := bankOk_dark
  bankB := bankOk_black
  queued := by
    intro r hr
    have : r ∈ [betaRecord] := hr
    simp only [List.mem_singleton] at this
    subst this
    unfold editOk betaRecord
    decide
  presented := by
    intro l q h
    fin_cases l
    all_goals first
      | exact nomatch (show none = some q from h)
      | (cases (show some _ = some q from h); unfold editOk betaRecord; decide)
  active := fun c i => by
    have h : atWork.tables.active.node c i = Node.dark := by
      show Bank.dark.node c i = _
      simp [Bank.dark, Bank.node, Table.get, Table.empty, getEntry, darkNode]
    rw [h]
    exact Nat.zero_le _
  armed := fun _ => lifts_black
  contexts := by
    intro c x h
    have : atWork.engines[c].context = none := by
      show (Vector.replicate 12 PixelEngine.reset)[c].context = none
      simp [PixelEngine.reset]
    rw [this] at h
    cases h
  fade := by decide
  codes := by decide +kernel

/-- The dark defaults have no seam. -/
theorem registered_dark : Registered Bank.dark := by
  have hc : Bank.dark.claims = [] := by decide +kernel
  refine ⟨⟨by rw [hc]; exact List.nodup_nil, fun q hq => ?_, fun c i _ => ?_⟩, by decide +kernel⟩
  · rw [hc] at hq
    exact absurd hq List.not_mem_nil
  · simp [Bank.dark, Bank.node, Table.get, Table.empty, getEntry, darkNode, Node.dark]

theorem witness_SkyStaysBalanced : SkyBalanced atWork where
  registered := registered_dark
  walked := fun _ => ⟨walked_blackBank .auto 260, by decide +kernel⟩
  leads := fun h => absurd h (by decide +kernel)
  weighed := fun _ => by unfold WeightsBalanced; decide +kernel
  armed := fun _ => by unfold LiftsBalanced; decide +kernel
  active := by unfold WeightsBalanced LiftsBalanced; decide +kernel

theorem witness_ReleasesStayCounted :
    ReleasesCounted { atWork with barrier := { atWork.barrier with skyFrame := 41 }, counters := put atWork.counters 0 41 } := by
  unfold ReleasesCounted
  decide +kernel

theorem witness_CommittedSkyChangesOnlyAtASwap :
    exec .stagingTurn atWork = .next (after .stagingTurn atWork) ∧ Instr.stagingTurn ≠ .hardReset ∧
      Instr.stagingTurn ≠ .hardResetEnd := ⟨rfl, by decide, by decide⟩

end Sys2Proof.Tests
end

/-! ### The rounded-down shares of a seam point (R31)

A share and its remainder make up `r * 4096` exactly (`Nat.div_add_mod`). Summed over the members, the shares miss 4096 by
the sum of the remainders over the sum of the coverages, and each remainder is less than that sum. -/
namespace Sys2Proof.Proofs

open Sys2Proof.Machine

/-- No share is below the threshold 0, so nothing is flushed (R32). -/
theorem flushedShares_zero (rs : List Nat) : flushedShares 0 rs = rs.map (fun r => r * 4096 / rs.sum) := by
  simp [flushedShares]

theorem share_le {rs : List Nat} {r : Nat} (hr : r ∈ rs) : r * 4096 / rs.sum ≤ 4096 :=
  Nat.div_le_of_le_mul (Nat.mul_le_mul_right 4096 (List.le_sum_of_mem hr))

theorem flushedShares_zero_le {rs : List Nat} {q : Nat} (hq : q ∈ flushedShares 0 rs) : q ≤ 4096 := by
  rw [flushedShares_zero] at hq
  obtain ⟨r, hr, rfl⟩ := List.mem_map.mp hq
  exact share_le hr

/-- What the divisions of R31 drop, in units of one over the sum of the coverages. -/
def droppedUnits (rs : List Nat) : Nat := (rs.map fun r => r * 4096 % rs.sum).sum

theorem sum_mul_sum_flushedShares_add_droppedUnits (rs : List Nat) :
    rs.sum * (flushedShares 0 rs).sum + droppedUnits rs = rs.sum * 4096 := by
  rw [flushedShares_zero, droppedUnits, ← List.sum_map_mul_left, ← List.sum_map_add]
  simp only [Nat.div_add_mod, List.sum_map_mul_right, List.map_id']

/-- Each division drops less than one unit, and there is a division. -/
theorem droppedUnits_lt {rs : List Nat} (hS : 0 < rs.sum) : droppedUnits rs < rs.sum * rs.length := by
  have hne : rs ≠ [] := by rintro rfl; simp at hS
  calc droppedUnits rs < (rs.map fun _ => rs.sum).sum :=
        List.sum_lt_sum_of_ne_nil hne _ _ fun _ _ => Nat.mod_lt _ hS
    _ = rs.sum * rs.length := by simp [Nat.mul_comm]

theorem sum_flushedShares_zero_le {rs : List Nat} (hS : 0 < rs.sum) : (flushedShares 0 rs).sum ≤ 4096 :=
  Nat.le_of_mul_le_mul_left (Nat.le.intro (sum_mul_sum_flushedShares_add_droppedUnits rs)) hS

theorem lt_sum_flushedShares_zero_add_length {rs : List Nat} (hS : 0 < rs.sum) :
    4096 < (flushedShares 0 rs).sum + rs.length := by
  refine Nat.lt_of_mul_lt_mul_left (a := rs.sum) ?_
  calc rs.sum * 4096 = rs.sum * (flushedShares 0 rs).sum + droppedUnits rs :=
        (sum_mul_sum_flushedShares_add_droppedUnits rs).symm
    _ < rs.sum * (flushedShares 0 rs).sum + rs.sum * rs.length := Nat.add_lt_add_left (droppedUnits_lt hS) _
    _ = rs.sum * ((flushedShares 0 rs).sum + rs.length) := (Nat.mul_add ..).symm

/-- Settles O20: the shares and what the divisions drop sum to 4096, and the n divisions drop less than n. -/
theorem sharesRoundDown : Obligations.SharesRoundDown := by
  intro rs hr hS
  have hlow := lt_sum_flushedShares_zero_add_length hS
  exact ⟨flushedShares_zero rs, fun r h => Nat.mul_le_mul_right 4096 (hr r h), fun _ => flushedShares_zero_le,
    sum_flushedShares_zero_le hS, by omega⟩

end Sys2Proof.Proofs

/-! ### The interpolated node value (R59, R61, R62)

The coefficients of a cell sum to 4096, so four equal corners interpolate to their common value; and interpolating is
monotone in the corners, so the value of any corners lies between those of their bounds. -/
namespace Sys2Proof.Proofs

open Sys2Proof.Machine

theorem sum_coefficients {n a b : Nat} (ha : a ≤ n) (hb : b ≤ n) :
    (coefficients n a b).q00 + (coefficients n a b).q10 + (coefficients n a b).q01 + (coefficients n a b).q11 =
      n * n := by
  calc _ = (n - a + a) * (n - b + b) := by simp only [coefficients]; ring
    _ = n * n := by rw [Nat.sub_add_cancel ha, Nat.sub_add_cancel hb]

theorem sum_pixelCoefficients (x y : Nat) :
    (coefficients 64 (x % 64) (y % 64)).q00 + (coefficients 64 (x % 64) (y % 64)).q10 +
      (coefficients 64 (x % 64) (y % 64)).q01 + (coefficients 64 (x % 64) (y % 64)).q11 = 4096 :=
  sum_coefficients (Nat.mod_lt x (by decide)).le (Nat.mod_lt y (by decide)).le

theorem weighted_equal (c : Corners Nat) (v : Int) :
    weighted c { q00 := v, q10 := v, q01 := v, q11 := v } = ((c.q00 + c.q10 + c.q01 + c.q11 : Nat) : Int) * v := by
  simp only [weighted, Nat.cast_add, add_mul]

/-- No coefficient is negative. -/
theorem weighted_mono (c : Corners Nat) {q r : Corners Int} (h00 : q.q00 ≤ r.q00) (h10 : q.q10 ≤ r.q10)
    (h01 : q.q01 ≤ r.q01) (h11 : q.q11 ≤ r.q11) : weighted c q ≤ weighted c r := by
  unfold weighted
  gcongr

/-- At offset (0, 0) the upper left corner has all the weight. -/
theorem weighted_at_node (n : Nat) (q : Corners Int) : weighted (coefficients n 0 0) q = (n * n : Nat) * q.q00 := by
  simp [weighted, coefficients]

/-- The added 2048 does not carry past a whole unit. -/
theorem interpolate_of_whole {x y : Nat} {q : Corners Int} {v : Int}
    (h : weighted (coefficients 64 (x % 64) (y % 64)) q = 4096 * v) : interpolate x y q = v := by
  rw [interpolate, h]
  omega

theorem interpolate_equal (x y : Nat) (v : Int) :
    interpolate x y { q00 := v, q10 := v, q01 := v, q11 := v } = v :=
  interpolate_of_whole <| by rw [weighted_equal, sum_pixelCoefficients]; rfl

theorem interpolate_mono (x y : Nat) {q r : Corners Int} (h00 : q.q00 ≤ r.q00) (h10 : q.q10 ≤ r.q10)
    (h01 : q.q01 ≤ r.q01) (h11 : q.q11 ≤ r.q11) : interpolate x y q ≤ interpolate x y r :=
  Int.ediv_le_ediv (by decide) (Int.add_le_add_right (weighted_mono _ h00 h10 h01 h11) 2048)

theorem le_interpolate (x y : Nat) {q : Corners Int} {lo : Int} (h00 : lo ≤ q.q00) (h10 : lo ≤ q.q10)
    (h01 : lo ≤ q.q01) (h11 : lo ≤ q.q11) : lo ≤ interpolate x y q :=
  calc lo = interpolate x y { q00 := lo, q10 := lo, q01 := lo, q11 := lo } := (interpolate_equal x y lo).symm
    _ ≤ interpolate x y q := interpolate_mono x y h00 h10 h01 h11

theorem interpolate_le (x y : Nat) {q : Corners Int} {hi : Int} (h00 : q.q00 ≤ hi) (h10 : q.q10 ≤ hi)
    (h01 : q.q01 ≤ hi) (h11 : q.q11 ≤ hi) : interpolate x y q ≤ hi :=
  calc interpolate x y q ≤ interpolate x y { q00 := hi, q10 := hi, q01 := hi, q11 := hi } :=
        interpolate_mono x y h00 h10 h01 h11
    _ = hi := interpolate_equal x y hi

theorem interpolate_at_node {x y : Nat} (q : Corners Int) (hx : x % 64 = 0) (hy : y % 64 = 0) :
    interpolate x y q = q.q00 :=
  interpolate_of_whole <| by rw [hx, hy, weighted_at_node]; rfl

/-- The added 2048 carries half a unit to the next whole one. -/
theorem interpolate_of_half {x y : Nat} {q : Corners Int} {n : Int}
    (h : weighted (coefficients 64 (x % 64) (y % 64)) q = 4096 * n + 2048) : interpolate x y q = n + 1 := by
  rw [interpolate, h]
  omega

/-- Settles O43: equal corners give their common value, and interpolating is monotone. -/
theorem interpolationStaysBetweenCorners : Obligations.InterpolationStaysBetweenCorners := by
  refine ⟨fun x y => ⟨rfl, rfl, rfl, rfl, sum_pixelCoefficients x y, fun _ => rfl⟩, ?bounds, interpolate_equal,
    fun _ _ q => interpolate_at_node q, fun _ _ _ _ => interpolate_of_half, ?negative⟩
  case bounds =>
    intro x y q lo hi l00 l10 l01 l11 h00 h10 h01 h11
    exact ⟨le_interpolate x y l00 l10 l01 l11, interpolate_le x y h00 h10 h01 h11⟩
  case negative =>
    intro x y q h
    rw [interpolate, h]
    rfl

end Sys2Proof.Proofs

/-! ### The arbiter's turn (R77, R78)

The links stand `turnsFrom` places after the rotation pointer, and each place from 0 to 12 is one link's. The turn goes
to the presenting link at the least place. -/
namespace Sys2Proof.Proofs

open Sys2Proof.Machine

/-- How many places after the pointer `p` a link stands in rotation order. -/
def turnsFrom (p l : Link) : Nat := (l.val + 13 - p.val) % 13

theorem turnsFrom_lt (p l : Link) : turnsFrom p l < 13 := Nat.mod_lt _ (by decide)

theorem rotate_turnsFrom (p l : Link) : rotate p (turnsFrom p l) = l := by
  apply Fin.ext
  simp only [rotate, turnsFrom]
  omega

theorem turnsFrom_rotate (p : Link) {i : Nat} (hi : i < 13) : turnsFrom p (rotate p i) = i := by
  simp only [rotate, turnsFrom]
  omega

theorem nextTurn_eq_some {s : State} {l : Link} (hl : s.ports[l].inProcess.isSome = true)
    (hfirst : ∀ l' : Link, s.ports[l'].inProcess.isSome = true →
      turnsFrom s.staging.pointer l ≤ turnsFrom s.staging.pointer l') : nextTurn s = some l := by
  have hfind : (List.range 13).find? ((fun l => s.ports[l].inProcess.isSome) ∘ rotate s.staging.pointer) =
      some (turnsFrom s.staging.pointer l) := by
    refine List.find?_range_eq_some.mpr ⟨?presents, List.mem_range.mpr (turnsFrom_lt _ l), ?earlier⟩
    case presents => rw [Function.comp_apply, rotate_turnsFrom]; exact hl
    case earlier =>
      intro j hj
      rw [Function.comp_apply, Bool.not_eq_true', Bool.eq_false_iff]
      intro hpresents
      have hle := hfirst (rotate s.staging.pointer j) hpresents
      rw [turnsFrom_rotate _ (hj.trans (turnsFrom_lt _ l))] at hle
      exact Nat.not_le_of_lt hj hle
  rw [nextTurn, List.find?_map, hfind, Option.map_some, rotate_turnsFrom]

theorem nextTurn_eq_none {s : State} (h : ∀ l : Link, s.ports[l].inProcess = none) : nextTurn s = none :=
  List.find?_eq_none.mpr fun l _ => by rw [h l]; decide

/-- Every record takes a unit, so a full queue admits none (R74). -/
theorem units_pos (e : Edit) : 0 < e.units := by
  cases e <;> simp [Edit.units]

theorem fits_iff (e : Edit) (occupancy : Nat) :
    e.units ≤ 8192 - occupancy ↔ occupancy + e.units ≤ Config.queueUnits := by
  have hpos := units_pos e
  simp only [Config.queueUnits]
  omega

/-- The port of a link after its turn: the request has ended with a response. -/
theorem upd_turn_end (s : State) (l : Link) (r : Response) :
    upd (upd s.ports l fun q => { q with inProcess := none }) l
        (fun q => { q with outbound := q.outbound ++ [.response r] }) =
      put s.ports l { s.ports[l] with inProcess := none, outbound := s.ports[l].outbound ++ [.response r] } := by
  rw [upd_upd]
  rfl

theorem takeTurn_fits {s : State} {q : Presented} (l : Link)
    (h : s.staging.occupancy + q.record.edit.units ≤ Config.queueUnits) :
    takeTurn l q s =
      { s with
        staging := { records := s.staging.records ++ [q.record], mark := s.staging.mark, pointer := rotate l 1 }
        ports := put s.ports l { s.ports[l] with
          inProcess := none
          outbound := s.ports[l].outbound ++ [.response (acceptance q.kind q.clamped
            (.staged q.record.edit.units (s.staging.occupancy + q.record.edit.units)))] } } := by
  simp only [takeTurn, if_pos h, acceptClamped, respond, upd_turn_end, acceptance]

theorem takeTurn_full {s : State} {q : Presented} (l : Link)
    (h : ¬ s.staging.occupancy + q.record.edit.units ≤ Config.queueUnits) :
    takeTurn l q s =
      { s with
        staging := { s.staging with pointer := rotate l 1 }
        counters := put s.counters 8 (s.counters[8] + 1)
        ports := put s.ports l { s.ports[l] with
          inProcess := none
          outbound := s.ports[l].outbound ++ [.response
            { kind := q.kind, code := .stageFull, clamped := false, isPartial := false
              body := .staged q.record.edit.units s.staging.occupancy }] } } := by
  simp only [takeTurn, if_neg h, respond, bump_ports, upd_turn_end]
  rfl

theorem exec_stagingTurn {s : State} (h : s.resetHeld = false) : exec .stagingTurn s = .next (stagingTurnStep s) :=
  takeEvent_ready h _

/-- Settles O14: the turn is found by its place, and then either the record fits or it does not. -/
theorem turnAdmitsOrRefuses : Obligations.TurnAdmitsOrRefuses := by
  refine ⟨?turn, ?idle⟩
  case turn =>
    intro s l q hr hq hfirst
    have hturn : stagingTurnStep s = takeTurn l q s := by
      rw [stagingTurnStep, nextTurn_eq_some (by rw [hq]; rfl) hfirst]
      simp only [hq]
    rw [exec_stagingTurn hr, hturn]
    by_cases hfit : s.staging.occupancy + q.record.edit.units ≤ Config.queueUnits
    · rw [takeTurn_fits l hfit]
      simp only [if_pos ((fits_iff _ _).mpr hfit)]
      rfl
    · rw [takeTurn_full l hfit]
      simp only [if_neg (mt (fits_iff _ _).mp hfit)]
      rfl
  case idle =>
    intro s hr hnone
    rw [exec_stagingTurn hr, stagingTurnStep, nextTurn_eq_none hnone]

end Sys2Proof.Proofs

/-! ### DISCARD (R83 to R85)

The outcome follows the checks: a failed check refuses the request, and a passed one removes what its selector hits. -/
namespace Sys2Proof.Proofs

open Sys2Proof.Machine

/-! #### The checks -/

theorem checkDiscard_tile_held {l : Link} {s : State} (hl : l ≠ 12) (hm : s.mode = .showing) :
    checkDiscard l s [] = .error .held := by
  simp [checkDiscard, heldTile, hl, hm]

theorem checkDiscard_tile {l : Link} {s : State} (hl : l ≠ 12) (hm : s.mode ≠ .showing) :
    checkDiscard l s [] = .ok (.one l) := by
  simp [checkDiscard, heldTile, hl, hm]

theorem checkDiscard_SL_all {p : List Byte} (s : State) (hp : p.length = 1) (h : u8 p 0 = 255) :
    checkDiscard 12 s p = .ok .all := by
  simp [checkDiscard, hp, h]

theorem checkDiscard_SL_link {p : List Byte} (s : State) (hp : p.length = 1) (h : u8 p 0 < 13) :
    checkDiscard 12 s p = .ok (.one ⟨u8 p 0, h⟩) := by
  have hall : u8 p 0 ≠ 255 := by omega
  simp [checkDiscard, hp, hall, link?, h]

theorem checkDiscard_SL_badField {p : List Byte} (s : State) (hp : p.length = 1) (h : 13 ≤ u8 p 0)
    (hall : u8 p 0 ≠ 255) : checkDiscard 12 s p = .error .badField := by
  simp [checkDiscard, hp, hall, link?, Nat.not_lt.mpr h]

/-- The checks read the mode alone. -/
theorem checkDiscard_dropOldest (l k : Link) (s : State) (p : List Byte) :
    checkDiscard l (dropOldest k s) p = checkDiscard l s p := rfl

/-! #### The request -/

theorem markedCount_eq_markCount (s : State) : s.staging.markedCount = markCount s := by
  rw [Staging.markedCount, markCount]
  cases s.staging.mark <;> rfl

theorem exec_discard {l : Link} {p : List Byte} {s : State} (hw : Waits l 0x26#8 p s) :
    exec (.discard l) s = .next (discardRequest l p (dropOldest l s)) :=
  takeRequest_waits (isKind := (· == Kind.discard)) hw rfl fun m => discardRequest l m.payload

theorem exec_discard_refuses {l : Link} {p : List Byte} {s : State} {code : ResultCode} (hw : Waits l 0x26#8 p s)
    (hc : checkDiscard l s p = .error code) : exec (.discard l) s = .next (answered l (refusal 0x26#8 code) s) := by
  rw [exec_discard hw]
  simp only [discardRequest, checkDiscard_dropOldest, hc, refuse_dropOldest, Kind.discard]

theorem exec_discard_removes {l : Link} {p : List Byte} {s : State} {d : DiscardSelector} (hw : Waits l 0x26#8 p s)
    (hc : checkDiscard l s p = .ok d) : exec (.discard l) s = .next (discarded l d.hits s) := by
  rw [exec_discard hw]
  simp only [discardRequest, checkDiscard_dropOldest, hc, discarded, ← respond_dropOldest, dropOldest_staging,
    Staging.discard, Staging.marked, Staging.unmarked, markedCount_eq_markCount, Kind.discard]
  rfl

/-! #### The occupancy -/

theorem unitsOf_append (rs ts : List EditRecord) : unitsOf (rs ++ ts) = unitsOf rs + unitsOf ts := by
  simp [unitsOf]

/-- The records a selector misses and those it hits make up the run. -/
theorem unitsOf_filter_not_add (hit : EditRecord → Bool) (rs : List EditRecord) :
    unitsOf (rs.filter fun r => !hit r) + unitsOf (rs.filter hit) = unitsOf rs := by
  rw [Nat.add_comm, ← unitsOf_append]
  exact ((List.filter_append_perm hit rs).map _).sum_eq

/-- What is kept and what is removed behind the first `n` records make up the queue. -/
theorem unitsOf_kept_add_removed (n : Nat) (hit : EditRecord → Bool) (rs : List EditRecord) :
    unitsOf (rs.take n ++ (rs.drop n).filter fun r => !hit r) + unitsOf ((rs.drop n).filter hit) = unitsOf rs := by
  rw [unitsOf_append, Nat.add_assoc, unitsOf_filter_not_add, ← unitsOf_append, List.take_append_drop]

theorem discarded_occupancy (l : Link) (hit : EditRecord → Bool) (s : State) :
    (discarded l hit s).staging.occupancy + unitsOf ((s.staging.records.drop (markCount s)).filter hit) =
      s.staging.occupancy :=
  unitsOf_kept_add_removed (markCount s) hit s.staging.records

/-- Settles O15: one case for each outcome of the checks, and the count of the units. -/
theorem discardRemovesByOrigin : Obligations.DiscardRemovesByOrigin := by
  refine ⟨?tile, ?showLink, discarded_occupancy⟩
  case tile =>
    intro l s hl hw
    by_cases hm : s.mode = .showing
    · rw [if_pos hm, exec_discard_refuses hw (checkDiscard_tile_held hl hm)]
    · rw [if_neg hm, exec_discard_removes hw (checkDiscard_tile hl hm)]
      rfl
  case showLink =>
    intro p s hw hp
    refine ⟨fun hall => exec_discard_removes hw (checkDiscard_SL_all s hp hall), ?link,
      fun hbad hall => exec_discard_refuses hw (checkDiscard_SL_badField s hp hbad hall)⟩
    case link =>
      intro hk
      have hhits : (DiscardSelector.one ⟨u8 p 0, Nat.lt_succ_of_le hk⟩).hits =
          fun r => decide (r.origin.val = u8 p 0) :=
        funext fun r => decide_eq_decide.mpr Fin.ext_iff
      rw [exec_discard_removes hw (checkDiscard_SL_link s hp (Nat.lt_succ_of_le hk)), hhits]

end Sys2Proof.Proofs

/-! ### The frame banks of a sound receiver (R116 to R120)

`ReceiverOk` counts the banks in each state. A bank in a state that at most one bank holds is the only one, so freeing
the lowest-numbered bank in that state frees every bank in it. -/
namespace Sys2Proof.Proofs

open Sys2Proof.Machine

/-- The banks of a receiver in a state. -/
def banksIn (r : Receiver) (st : BankState) : Finset (Fin 3) := Finset.univ.filter fun i => r.banks[i].state = st

theorem mem_banksIn {r : Receiver} {st : BankState} {i : Fin 3} : i ∈ banksIn r st ↔ r.banks[i].state = st := by
  simp [banksIn]

/-- The count of `ReceiverOk` is the number of places. -/
theorem length_filter_state_eq_card (r : Receiver) (st : BankState) :
    (r.banks.toList.filter fun b => decide (b.state = st)).length = (banksIn r st).card := by
  have hlist : r.banks.toList = List.ofFn fun i : Fin 3 => r.banks[i] :=
    List.ext_getElem (by simp) fun _ _ _ => by simp only [Vector.getElem_toList, List.getElem_ofFn, Fin.getElem_fin]
  rw [hlist, List.ofFn_eq_map, List.filter_map, List.length_map]
  rfl

theorem free_or_filling_iff (st : BankState) : st = .free ∨ st = .filling ↔ ¬ (st = .shown ∨ st = .ready) := by
  cases st <;> decide

/-- At most one bank of the receiver is in the state. -/
def SoleIn (r : Receiver) (st : BankState) : Prop :=
  ∀ i j : Fin 3, r.banks[i].state = st → r.banks[j].state = st → i = j

theorem soleIn_of_card {r : Receiver} {st : BankState} (h : (banksIn r st).card ≤ 1) : SoleIn r st :=
  fun _ _ hi hj => Finset.card_le_one_iff.mp h (mem_banksIn.mpr hi) (mem_banksIn.mpr hj)

section Sound

variable {r : Receiver} (h : ReceiverOk r)

include h

theorem soleIn_ready : SoleIn r .ready := soleIn_of_card (length_filter_state_eq_card r .ready ▸ h.ready)

theorem card_filling : (banksIn r .filling).card = if r.state = .receiving then 1 else 0 :=
  (length_filter_state_eq_card r .filling).symm.trans h.filling

theorem soleIn_filling : SoleIn r .filling :=
  soleIn_of_card (by rw [card_filling h]; split <;> decide)

theorem not_filling (hs : r.state ≠ .receiving) (i : Fin 3) : r.banks[i].state ≠ .filling := by
  intro hi
  have hnone : banksIn r .filling = ∅ := Finset.card_eq_zero.mp (by rw [card_filling h, if_neg hs])
  exact Finset.notMem_empty i (hnone ▸ mem_banksIn.mpr hi)

/-- One bank is SHOWN and at most one READY, so of the three some bank is neither. -/
theorem exists_free_or_filling : ∃ i : Fin 3, r.banks[i].state = .free ∨ r.banks[i].state = .filling := by
  have hshown : (banksIn r .shown).card = 1 := (length_filter_state_eq_card r .shown).symm.trans h.shown
  have hready : (banksIn r .ready).card ≤ 1 := length_filter_state_eq_card r .ready ▸ h.ready
  have hfew : (banksIn r .shown ∪ banksIn r .ready).card < (Finset.univ : Finset (Fin 3)).card :=
    calc (banksIn r .shown ∪ banksIn r .ready).card
        ≤ (banksIn r .shown).card + (banksIn r .ready).card := Finset.card_union_le _ _
      _ < 3 := by omega
      _ = _ := rfl
  obtain ⟨i, -, hi⟩ := Finset.exists_mem_notMem_of_card_lt_card hfew
  rw [Finset.mem_union, mem_banksIn, mem_banksIn] at hi
  exact ⟨i, (free_or_filling_iff _).mpr hi⟩

end Sound

/-! #### One bank changed -/

theorem updBank_same (r : Receiver) (i : Fin 3) (f : FrameBank → FrameBank) :
    (r.updBank i f).banks[i] = f r.banks[i] := by
  simp [Receiver.updBank]

theorem updBank_other (r : Receiver) {i j : Fin 3} (f : FrameBank → FrameBank) (h : j ≠ i) :
    (r.updBank i f).banks[j] = r.banks[j] := by
  simp [Receiver.updBank, Fin.val_ne_of_ne h.symm]

theorem bankIn_eq_of_soleIn {r : Receiver} {st : BankState} {i : Fin 3} (hsole : SoleIn r st)
    (hi : r.banks[i].state = st) : r.bankIn st = some i := by
  cases hfound : r.bankIn st with
  | none => exact absurd hi (Receiver.bankIn_none hfound i)
  | some j => rw [hsole j i (Receiver.bankIn_some hfound).1 hi]

/-- A bank that goes FREE where it is in the state `st`. -/
def freedFrom (st : BankState) (b : FrameBank) : FrameBank := { b with state := if b.state = st then .free else b.state }

theorem freedFrom_of_ne {st : BankState} {b : FrameBank} (h : b.state ≠ st) : freedFrom st b = b := by
  rw [freedFrom, if_neg h]

theorem freeBankIn_bank {r : Receiver} {st : BankState} (hsole : SoleIn r st) (j : Fin 3) :
    (r.freeBankIn st).banks[j] = freedFrom st r.banks[j] := by
  rw [Receiver.freeBankIn]
  cases hfound : r.bankIn st with
  | none => exact (freedFrom_of_ne (Receiver.bankIn_none hfound j)).symm
  | some i =>
    have hi := (Receiver.bankIn_some hfound).1
    by_cases hj : j = i
    · subst hj
      rw [updBank_same, freedFrom, if_pos hi, FrameBank.become]
    · rw [updBank_other r _ hj, freedFrom_of_ne fun hst => hj (hsole j i hst hi)]

end Sys2Proof.Proofs

/-! ### FRAME_HEADER (R120)

A header first gives up the frame in reception, which leaves a FREE bank in every sound receiver, and then fills the
lowest-numbered one. -/
namespace Sys2Proof.Proofs

open Sys2Proof.Machine

/-- The receiver once a header has ended the frame in reception. -/
def receptionEnded (r : Receiver) : Receiver := if r.state = .receiving then r.freeBankIn .filling else r

theorem receptionEnded_bank {r : Receiver} (h : ReceiverOk r) (j : Fin 3) :
    (receptionEnded r).banks[j] = freedFrom .filling r.banks[j] := by
  by_cases hs : r.state = .receiving
  · rw [receptionEnded, if_pos hs, freeBankIn_bank (soleIn_filling h)]
  · rw [receptionEnded, if_neg hs, freedFrom_of_ne (not_filling h hs j)]

theorem freedFrom_filling_state (b : FrameBank) :
    (freedFrom .filling b).state = .free ↔ b.state = .free ∨ b.state = .filling := by
  cases hst : b.state <;> simp [freedFrom, hst]

/-- The bank a header fills: the lowest-numbered one FREE once the frame in reception is given up. -/
theorem receptionEnded_free {r : Receiver} (h : ReceiverOk r) : ∃ i : Fin 3,
    (receptionEnded r).bankIn .free = some i ∧ (r.banks[i].state = .free ∨ r.banks[i].state = .filling) ∧
      ∀ j : Fin 3, j.val < i.val → r.banks[j].state = .shown ∨ r.banks[j].state = .ready := by
  have hfree (j : Fin 3) : (receptionEnded r).banks[j].state = .free ↔
      r.banks[j].state = .free ∨ r.banks[j].state = .filling := by
    rw [receptionEnded_bank h, freedFrom_filling_state]
  cases hfound : (receptionEnded r).bankIn .free with
  | none =>
    obtain ⟨i, hi⟩ := exists_free_or_filling h
    exact absurd ((hfree i).mpr hi) (Receiver.bankIn_none hfound i)
  | some i =>
    obtain ⟨hi, hlower⟩ := Receiver.bankIn_some hfound
    refine ⟨i, rfl, (hfree i).mp hi, fun j hj => ?_⟩
    have hbusy := mt (hfree j).mpr (hlower j hj)
    rwa [free_or_filling_iff, not_not] at hbusy

theorem header_of_free {r : Receiver} {i : Fin 3} (tag : Word32) (h : (receptionEnded r).bankIn .free = some i) :
    r.header tag = { (receptionEnded r).updBank i (FrameBank.startFilling tag) with
      lineCount := 0, lossCount := 0, state := .receiving } := by
  rw [receptionEnded] at h
  simp only [Receiver.header, h, receptionEnded]

theorem header_same {r : Receiver} (hok : ReceiverOk r) {i : Fin 3} (tag : Word32)
    (h : (receptionEnded r).bankIn .free = some i) :
    (r.header tag).banks[i] = { r.banks[i] with state := .filling, tag := tag, malformed := false } := by
  rw [header_of_free tag h]
  exact (updBank_same ..).trans (by rw [receptionEnded_bank hok]; rfl)

theorem header_other {r : Receiver} (hok : ReceiverOk r) {i j : Fin 3} (tag : Word32)
    (h : (receptionEnded r).bankIn .free = some i) (hj : j ≠ i) :
    (r.header tag).banks[j] = freedFrom .filling r.banks[j] := by
  rw [header_of_free tag h]
  exact (updBank_other _ _ hj).trans (receptionEnded_bank hok j)

theorem exec_frameHeader {s : State} (hr : s.resetHeld = false) (c : Channel) (tag : Word32) :
    exec (.frameHeader c tag) s = .next (takeHeader c tag s) :=
  takeEvent_ready hr _

/-- Settles O25: a sound receiver has a bank for the header, and the three receiver states differ in what is counted or
emitted alone. -/
theorem headerStartsFilling : Obligations.HeaderStartsFilling := by
  intro c tag s hr hok
  obtain ⟨i, hfound, hi, hlower⟩ := receptionEnded_free hok
  have hheader := header_of_free tag hfound
  refine ⟨i, s.receivers[c].header tag, ?exec, by rw [hheader], by rw [hheader], by rw [hheader], hi, hlower,
    header_same hok tag hfound, fun j hj => header_other hok tag hfound hj⟩
  case exec =>
    rw [exec_frameHeader hr, takeHeader]
    cases s.receivers[c].state <;> rfl

end Sys2Proof.Proofs

/-! ### FRAME_END (R122, R123, R146)

The frame of the FILLING bank is judged: a bad one is given up, a good one takes the place of the READY one. -/
namespace Sys2Proof.Proofs

open Sys2Proof.Machine

theorem exec_frameEnd {s : State} (hr : s.resetHeld = false) (c : Channel) :
    exec (.frameEnd c) s = .next (takeFrameEnd c s) :=
  takeEvent_ready hr _

theorem takeFrameEnd_ignored {s : State} {c : Channel} (hs : s.receivers[c].state ≠ .receiving) :
    takeFrameEnd c s = s := if_neg hs

theorem takeFrameEnd_judges {s : State} {c : Channel} {i : Fin 3} (hok : ReceiverOk s.receivers[c])
    (hs : s.receivers[c].state = .receiving) (hi : s.receivers[c].banks[i].state = .filling) :
    takeFrameEnd c s = judgeFrame c i s := by
  simp only [takeFrameEnd, if_pos hs, bankIn_eq_of_soleIn (soleIn_filling hok) hi]

theorem badFrame_iff (r : Receiver) (i : Fin 3) (height : Nat) :
    r.badFrame i height = true ↔ r.banks[i].malformed = true ∨ r.lineCount ≠ height := by
  simp [Receiver.badFrame]

/-- The receiver after a bad frame in bank `i`. -/
def frameFreed (r : Receiver) (i : Fin 3) : Receiver := { r.updBank i (FrameBank.become .free) with state := .idle }

/-- The receiver after a good frame in bank `i`. -/
def frameKept (r : Receiver) (i : Fin 3) : Receiver :=
  { (r.freeBankIn .ready).updBank i (FrameBank.become .ready) with state := .idle }

theorem frameKept_lineCount (r : Receiver) (i : Fin 3) : (frameKept r i).lineCount = r.lineCount := by
  rw [frameKept, Receiver.freeBankIn_eq, Receiver.updBank]

theorem frameKept_lossCount (r : Receiver) (i : Fin 3) : (frameKept r i).lossCount = r.lossCount := by
  rw [frameKept, Receiver.freeBankIn_eq, Receiver.updBank]

theorem frameKept_same {r : Receiver} (hok : ReceiverOk r) (i : Fin 3) :
    (frameKept r i).banks[i] = { r.banks[i] with state := .ready } :=
  (updBank_same ..).trans (by rw [freeBankIn_bank (soleIn_ready hok)]; rfl)

theorem frameKept_other {r : Receiver} (hok : ReceiverOk r) {i j : Fin 3} (hj : j ≠ i) :
    (frameKept r i).banks[j] = freedFrom .ready r.banks[j] :=
  (updBank_other _ _ hj).trans (freeBankIn_bank (soleIn_ready hok) j)

theorem judgeFrame_bad {s : State} {c : Channel} {i : Fin 3}
    (h : s.receivers[c].badFrame i (s.tables.active.records[c]).height = true) :
    judgeFrame c i s =
      counted (Counter.ofChannel c 2) { s with receivers := put s.receivers c (frameFreed s.receivers[c] i) } :=
  if_pos h

/-- The state `t` with the completion of the frame counted, and the replacement of the frame READY in `s` (R131). -/
def frameCounted (c : Channel) (s t : State) : State :=
  if Ready s c then counted (Counter.ofChannel c 3) (counted (Counter.ofChannel c 0) t)
  else counted (Counter.ofChannel c 0) t

theorem frameCounted_receivers (c : Channel) (s t : State) : (frameCounted c s t).receivers = t.receivers := by
  rw [frameCounted]
  split <;> rfl

theorem frameCounted_barrier (c : Channel) (s t : State) : (frameCounted c s t).barrier = t.barrier := by
  rw [frameCounted]
  split <;> rfl

theorem bumpAll_completed (c : Channel) (s t : State) :
    bumpAll (Counter.ofChannel c 0 ::
      if (s.receivers[c].bankIn .ready).isSome then [Counter.ofChannel c 3] else []) t = frameCounted c s t := by
  by_cases hready : Ready s c
  · rw [frameCounted, if_pos hready, if_pos ((Receiver.bankIn_isSome ..).mpr hready)]
    rfl
  · rw [frameCounted, if_neg hready, if_neg (mt (Receiver.bankIn_isSome ..).mp hready)]
    rfl

theorem judgeFrame_good {s : State} {c : Channel} {i : Fin 3}
    (h : ¬ s.receivers[c].badFrame i (s.tables.active.records[c]).height = true) :
    judgeFrame c i s = rejoin c s.receivers[c].banks[i].tag
      (frameCounted c s { s with receivers := put s.receivers c (frameKept s.receivers[c] i) }) := by
  rw [← bumpAll_completed]
  exact if_neg h

theorem rejoin_receivers (c : Channel) (tag : Word32) (s : State) : (rejoin c tag s).receivers = s.receivers := by
  rw [rejoin]
  split
  · rw [handAll_eq]
  · rfl

/-- The rejoin of a channel in a state whose barrier is that of `s`. -/
theorem rejoin_of_barrier {s t : State} (c : Channel) (tag : Word32) (h : t.barrier = s.barrier) :
    rejoin c tag t = if (s.barrier.channels[c]).stalled = true then
        handAll [(tileLink c, .rejoined c tag), (12, .rejoined c tag)]
          { t with barrier := { t.barrier with
              channels := put s.barrier.channels c { s.barrier.channels[c] with stalled := false, lateCount := 0 } } }
      else t := by
  rw [rejoin, h]
  rfl

/-- Settles O27: outside RECEIVING nothing is judged; in RECEIVING the frame is bad or good. -/
theorem frameEndJudges : Obligations.FrameEndJudges := by
  refine ⟨?ignored, ?judged⟩
  case ignored =>
    intro c s hr hs
    rw [exec_frameEnd hr, takeFrameEnd_ignored hs]
  case judged =>
    intro c s i hr hok hs hi
    refine ⟨judgeFrame c i s, by rw [exec_frameEnd hr, takeFrameEnd_judges hok hs hi], ?_⟩
    have hiff := badFrame_iff s.receivers[c] i (s.tables.active.records[c]).height
    by_cases hbad : s.receivers[c].badFrame i (s.tables.active.records[c]).height = true
    · rw [judgeFrame_bad hbad]
      exact ⟨frameFreed s.receivers[c] i, rfl, rfl, rfl, rfl, fun _ => ⟨rfl, rfl⟩,
        fun hgood => absurd (hiff.mp hbad) hgood⟩
    · have hreceivers : (judgeFrame c i s).receivers = put s.receivers c (frameKept s.receivers[c] i) := by
        rw [judgeFrame_good hbad, rejoin_receivers, frameCounted_receivers]
      refine ⟨frameKept s.receivers[c] i, hreceivers, rfl, frameKept_lineCount .., frameKept_lossCount ..,
        fun h => absurd (hiff.mpr h) hbad,
        fun _ => ⟨frameKept_same hok i, fun _ hj => frameKept_other hok hj, ?_⟩⟩
      rw [hreceivers, judgeFrame_good hbad]
      exact rejoin_of_barrier c _ (frameCounted_barrier ..)

end Sys2Proof.Proofs

/-! ### LINK_BYTE (R181, R183)

The receiver's step is a state to go to and an event. Where a header or a CHECK completes, the bytes kept decide between
the events; the buffer, which the receiver's state does not touch, decides whether a complete message joins it. -/
namespace Sys2Proof.Proofs

open Sys2Proof.Machine

theorem exec_linkByte {s : State} (h : s.resetHeld = false) (l : Link) (b : Byte) :
    exec (.linkByte l b) s = .next (takeByte l b s) :=
  takeEvent_ready h _

theorem takeByte_open {l : Link} {s : State} (h : s.ports[l].line = .isOpen) (b : Byte) :
    takeByte l b s = rxEffect l (s.ports[l].rx.byte b).2 (setRx l (s.ports[l].rx.byte b).1 s) :=
  if_pos h

/-! #### A complete header -/

theorem headerDone_tooLong {low high : Byte} (k : Byte) (h : 2048 < low.toNat + 256 * high.toNat) :
    headerDone k low high = (.hunt, .framing) := if_pos h

theorem headerDone_empty {low high : Byte} (k : Byte) (h : low.toNat + 256 * high.toNat = 0) :
    headerDone k low high = (.check k [] none, .quiet) := by
  simp [headerDone, h]

theorem headerDone_payload {low high : Byte} (k : Byte) (hmax : ¬ 2048 < low.toNat + 256 * high.toNat)
    (h : low.toNat + 256 * high.toNat ≠ 0) :
    headerDone k low high = (.payload k (low.toNat + 256 * high.toNat) [], .quiet) := by
  rw [headerDone, if_neg hmax, if_neg h]

/-! #### A complete CHECK -/

theorem toNat_append_byte (high low : Byte) : (high ++ low).toNat = low.toNat + 256 * high.toNat := by
  rw [BitVec.toNat_append, ← Nat.shiftLeft_add_eq_or_of_lt low.isLt, Nat.shiftLeft_eq]
  omega

/-- The CHECK is sent low byte first (R180). -/
theorem judgeCheck_eq (k : Byte) (taken : List Byte) (low high : Byte) :
    judgeCheck k taken low high =
      if (crc (k :: (leBytes 2 taken.length ++ taken))).toNat = low.toNat + 256 * high.toNat then
        .complete { kind := k, payload := taken }
      else .mismatch := by
  rw [judgeCheck, messageCrc, ← toNat_append_byte]
  simp only [BitVec.toNat_inj]

/-- The receiver's state does not bear on the room of the buffer. -/
theorem offerMessage_setRx (l : Link) (r : Rx) (m : Message) (s : State) :
    offerMessage l m (setRx l r s) =
      if bufferRoom s.ports[l].buffer + (3 + m.payload.length) ≤ 4096 then
        withPort l { s.ports[l] with rx := r, buffer := s.ports[l].buffer ++ [m] } s
      else counted (Counter.ofLink l 2) (withPort l { s.ports[l] with rx := r } s) := by
  have hbuffer : (setRx l r s).ports[l].buffer = s.ports[l].buffer := by simp [setRx]
  rw [offerMessage, hbuffer]
  refine if_congr Iff.rfl ?_ rfl
  simp only [setRx, upd_upd]
  rfl

/-- Settles O49: one case for each state of the receiver and each number of bytes kept. -/
theorem linkBytesReceived : Obligations.LinkBytesReceived := by
  intro l b s hr hopen
  rw [exec_linkByte hr, takeByte_open hopen]
  cases hrx : s.ports[l].rx with
  | hunt => rfl
  | header kept =>
    match kept with
    | [] => rfl
    | [_] => rfl
    | k :: low :: _ =>
      simp only [Rx.byte]
      by_cases hmax : 2048 < low.toNat + 256 * b.toNat
      · rw [headerDone_tooLong k hmax, if_pos hmax]
        rfl
      · rw [if_neg hmax]
        by_cases hzero : low.toNat + 256 * b.toNat = 0
        · rw [headerDone_empty k hzero, if_pos hzero]
          rfl
        · rw [headerDone_payload k hmax hzero, if_neg hzero]
          rfl
  | payload k n taken =>
    simp only [Rx.byte]
    by_cases hmore : taken.length + 1 < n
    · simp only [if_pos hmore]
      rfl
    · simp only [if_neg hmore]
      rfl
  | check k taken low =>
    cases low with
    | none => rfl
    | some low =>
      simp only [Rx.byte, judgeCheck_eq]
      by_cases hcrc : (crc (k :: (leBytes 2 taken.length ++ taken))).toNat = low.toNat + 256 * b.toNat
      · rw [if_pos hcrc, if_neg (not_not_intro hcrc)]
        exact congrArg _ (offerMessage_setRx ..)
      · rw [if_neg hcrc, if_pos hcrc]
        rfl

end Sys2Proof.Proofs

/-! ### A notice handed to a port (R197 to R199)

The notice that is replaced is the last one alike in the list that is searched. Once a byte of the head of the queue is
sent, that list is the queue without its head. -/
namespace Sys2Proof.Proofs

open Sys2Proof.Machine

/-! #### The last accepted element -/

theorem replaceLast_of_none {α : Type} {p : α → Bool} {l : List α} (f : α → α) (h : ∀ a ∈ l, p a = false) :
    replaceLast p f l = none := by
  induction l with
  | nil => rfl
  | cons a as ih =>
    obtain ⟨ha, has⟩ := List.forall_mem_cons.mp h
    simp [replaceLast, ih has, ha]

theorem replaceLast_append_cons {α : Type} {p : α → Bool} {a : α} {after : List α} (f : α → α) (ha : p a = true)
    (hafter : ∀ x ∈ after, p x = false) (before : List α) :
    replaceLast p f (before ++ a :: after) = some (before ++ f a :: after) := by
  induction before with
  | nil => simp [replaceLast, replaceLast_of_none f hafter, ha]
  | cons x xs ih => simp [replaceLast, ih]

/-! #### The notices alike -/

theorem matchesNotice_notice {k : NoticeKind} {ch : Option Channel} {n : Notice} :
    (OutMessage.notice n).matchesNotice k ch = true ↔ n.body.kind = k ∧ n.channel = ch :=
  decide_eq_true_iff

theorem matchesNotice_eq_false {k : NoticeKind} {ch : Option Channel} {ms : List OutMessage}
    (h : ∀ n, OutMessage.notice n ∈ ms → ¬ (n.body.kind = k ∧ n.channel = ch)) :
    ∀ m ∈ ms, m.matchesNotice k ch = false := by
  intro m hm
  cases m with
  | response r => rfl
  | notice n => exact Bool.eq_false_iff.mpr (mt matchesNotice_notice.mp (h n hm))

/-! #### Coalescing -/

theorem coalesce_idle {p : Port} (h : p.sent = 0) (ch : Option Channel) (b : NoticeBody) :
    p.coalesce ch b =
      replaceLast (OutMessage.matchesNotice b.kind ch) (coalesceInto ch p.lostFlag b) p.outbound := by
  rw [Port.coalesce]
  cases p.outbound <;> simp [h, replaceLast]

theorem coalesce_sending {p : Port} {m : OutMessage} {ms : List OutMessage} (h : 0 < p.sent)
    (hout : p.outbound = m :: ms) (ch : Option Channel) (b : NoticeBody) :
    p.coalesce ch b =
      (replaceLast (OutMessage.matchesNotice b.kind ch) (coalesceInto ch p.lostFlag b) ms).map (m :: ·) := by
  simp only [Port.coalesce, hout, if_pos h]

/-- The newest notice alike that is not being sent is replaced where it stands. -/
theorem coalesce_newest {p : Port} {ch : Option Channel} {b : NoticeBody} {before after : List OutMessage} {n : Notice}
    (hout : p.outbound = before ++ .notice n :: after) (hn : n.body.kind = b.kind ∧ n.channel = ch)
    (hafter : ∀ n', OutMessage.notice n' ∈ after → ¬ (n'.body.kind = b.kind ∧ n'.channel = ch))
    (hhead : before = [] → p.sent = 0) :
    p.coalesce ch b = some (before ++ coalesceInto ch p.lostFlag b (.notice n) :: after) := by
  have hreplace := replaceLast_append_cons (coalesceInto ch p.lostFlag b) (matchesNotice_notice.mpr hn)
    (matchesNotice_eq_false hafter)
  rcases Nat.eq_zero_or_pos p.sent with hidle | hsending
  · rw [coalesce_idle hidle, hout, hreplace]
  · cases before with
    | nil => exact absurd (hhead rfl) hsending.ne'
    | cons m ms =>
      rw [List.cons_append] at hout ⊢
      rw [coalesce_sending hsending hout, hreplace, Option.map_some]

theorem coalesce_none {p : Port} {ch : Option Channel} {b : NoticeBody}
    (h : ∀ n, OutMessage.notice n ∈ (if 0 < p.sent then p.outbound.tail else p.outbound) →
      ¬ (n.body.kind = b.kind ∧ n.channel = ch)) : p.coalesce ch b = none := by
  have hreplace := replaceLast_of_none (coalesceInto ch p.lostFlag b) (matchesNotice_eq_false h)
  rcases Nat.eq_zero_or_pos p.sent with hidle | hsending
  · rw [if_neg (by omega)] at hreplace
    rw [coalesce_idle hidle, hreplace]
  · rw [if_pos hsending] at hreplace
    cases hout : p.outbound with
    | nil => rw [Port.coalesce, hout]
    | cons m ms =>
      rw [hout, List.tail_cons] at hreplace
      rw [coalesce_sending hsending hout, hreplace, Option.map_none]

/-! #### The judgement of the port -/

theorem portHand_masked {p : Port} {b : NoticeBody} (ch : Option Channel) (h : p.mask.admits b.kind = false) :
    p.hand ch b = (p, false) := by
  simp [Port.hand, h]

theorem portHand_appends {p : Port} {b : NoticeBody} (ch : Option Channel) (h : p.mask.admits b.kind = true)
    (hroom : noticeCount p.outbound < 15) :
    p.hand ch b =
      ({ p with lostFlag := false
                outbound := p.outbound ++ [.notice { channel := ch, lost := p.lostFlag, merged := 0, body := b }] },
        false) := by
  rw [noticeCount] at hroom
  simp [Port.hand, h, hroom]

theorem portHand_coalesces {p : Port} {ch : Option Channel} {b : NoticeBody} {q : List OutMessage}
    (h : p.mask.admits b.kind = true) (hfull : 15 ≤ noticeCount p.outbound) (hq : p.coalesce ch b = some q) :
    p.hand ch b = ({ p with outbound := q, lostFlag := false }, false) := by
  rw [noticeCount] at hfull
  simp [Port.hand, h, Nat.not_lt.mpr hfull, hq]

theorem portHand_drops {p : Port} {ch : Option Channel} {b : NoticeBody} (h : p.mask.admits b.kind = true)
    (hfull : 15 ≤ noticeCount p.outbound) (hq : p.coalesce ch b = none) :
    p.hand ch b = ({ p with lostFlag := true }, true) := by
  rw [noticeCount] at hfull
  simp [Port.hand, h, Nat.not_lt.mpr hfull, hq]

theorem hand_kept {l : Link} {b : NoticeBody} {s : State} {p : Port}
    (h : s.ports[l].hand (noticeChannel l b) b = (p, false)) : hand l b s = withPort l p s := by
  simp only [hand, h]
  rfl

theorem hand_dropped {l : Link} {b : NoticeBody} {s : State} {p : Port}
    (h : s.ports[l].hand (noticeChannel l b) b = (p, true)) :
    hand l b s = counted (Counter.ofLink l 3) (withPort l p s) := by
  simp only [hand, h]
  rfl

theorem withPort_self (l : Link) (s : State) : withPort l s.ports[l] s = s := by
  simp [withPort, put]

/-- Settles O52: the port masks, appends, coalesces or drops, and a drop alone is counted. -/
theorem noticeJudged : Obligations.NoticeJudged := by
  intro l b s
  refine ⟨?masked, ?appended, ?coalesced, ?dropped⟩
  case masked =>
    intro hmask
    rw [hand_kept (portHand_masked _ hmask), withPort_self]
  case appended =>
    intro hmask hroom
    exact hand_kept (portHand_appends _ hmask hroom)
  case coalesced =>
    intro before after n hmask hfull hout hn hafter hhead
    exact hand_kept (portHand_coalesces hmask hfull (coalesce_newest hout hn hafter hhead))
  case dropped =>
    intro hmask hfull hnone
    exact hand_dropped (portHand_drops hmask hfull (coalesce_none hnone))

end Sys2Proof.Proofs

/-! ### READ_COUNTER (R207)

The checks go in the order of R207. The run is looked at for foreign indexes only once it lies within the map, so every
index of the run is one of the 157. -/
namespace Sys2Proof.Proofs

open Sys2Proof.Machine

/-! #### The run -/

theorem mem_counterRun {first count i : Nat} : i ∈ counterRun first count ↔ first ≤ i ∧ i < first + count := by
  simp only [counterRun, List.mem_map, List.mem_range]
  constructor
  · rintro ⟨k, hk, rfl⟩
    omega
  · rintro ⟨hle, hlt⟩
    exact ⟨i - first, by omega, by omega⟩

/-- The counters of a run as READ_COUNTER returns them. -/
def counterValues (s : State) (first count : Nat) : List Word32 := (counterRun first count).map (counterAt s)

theorem length_counterValues (s : State) (first count : Nat) : (counterValues s first count).length = count := by
  simp [counterValues, counterRun]

theorem counterAt_eq_getElem {s : State} {i : Nat} (h : i < 157) : counterAt s i = s.counters[i] := by
  simp [counterAt, h]

theorem counterValues_getElem? {s : State} {first count j : Nat} (h : first + j < 157) (hj : j < count) :
    (counterValues s first count)[j]? = some s.counters[first + j] := by
  simp [counterValues, counterRun, hj, counterAt_eq_getElem h]

/-- The counters do not depend on the ports. -/
theorem counterAt_dropOldest (l : Link) (s : State) : counterAt (dropOldest l s) = counterAt s := rfl

/-! #### The permission -/

/-- The indexes TLk may read: the global counters, those of channel k and those of link k (R207). -/
abbrev OwnCounter (l : Link) (i : Nat) : Prop :=
  i ≤ 8 ∨ (9 + 8 * l.val ≤ i ∧ i ≤ 16 + 8 * l.val) ∨ (105 + 4 * l.val ≤ i ∧ i ≤ 108 + 4 * l.val)

/-- The run reaches an index of the map that the link may not read. -/
abbrev ForeignRun (l : Link) (first count : Nat) : Prop :=
  l ≠ 12 ∧ ∃ j : Fin 157, first ≤ j.val ∧ j.val < first + count ∧ ¬ OwnCounter l j.val

theorem mayReadCounter_eq_false {l : Link} {i : Nat} : mayReadCounter l i = false ↔ l ≠ 12 ∧ ¬ OwnCounter l i := by
  rw [mayReadCounter, decide_eq_false_iff_not, not_or]

theorem any_forbidden_iff_foreignRun {l : Link} {first count : Nat} (hrange : first + count ≤ 157) :
    (counterRun first count).any (fun i => !mayReadCounter l i) = true ↔ ForeignRun l first count := by
  simp only [List.any_eq_true, mem_counterRun, Bool.not_eq_true', mayReadCounter_eq_false]
  constructor
  · rintro ⟨i, ⟨hle, hlt⟩, hl, hown⟩
    exact ⟨hl, ⟨i, by omega⟩, hle, hlt, hown⟩
  · rintro ⟨hl, j, hle, hlt, hown⟩
    exact ⟨j.val, ⟨hle, hlt⟩, hl, hown⟩

/-! #### The checks -/

section Checks

variable {l : Link} {p : List Byte}

theorem checkReadCounter_badField (hp : p.length = 3) (hcount : u8 p 2 = 0 ∨ 32 < u8 p 2) :
    checkReadCounter l p = .error .badField := by
  rw [checkReadCounter, if_neg (not_not_intro hp), if_pos hcount]

theorem checkReadCounter_badIndex (hp : p.length = 3) (hcount : ¬ (u8 p 2 = 0 ∨ 32 < u8 p 2))
    (hrange : 156 < u16 p 0 + u8 p 2 - 1) : checkReadCounter l p = .error .badIndex := by
  rw [checkReadCounter, if_neg (not_not_intro hp), if_neg hcount, if_pos hrange]

theorem checkReadCounter_notPermitted (hp : p.length = 3) (hcount : ¬ (u8 p 2 = 0 ∨ 32 < u8 p 2))
    (hrange : ¬ 156 < u16 p 0 + u8 p 2 - 1) (hforeign : ForeignRun l (u16 p 0) (u8 p 2)) :
    checkReadCounter l p = .error .notPermitted := by
  rw [checkReadCounter, if_neg (not_not_intro hp), if_neg hcount, if_neg hrange,
    if_pos ((any_forbidden_iff_foreignRun (by omega)).mpr hforeign)]

theorem checkReadCounter_ok (hp : p.length = 3) (hcount : ¬ (u8 p 2 = 0 ∨ 32 < u8 p 2))
    (hrange : ¬ 156 < u16 p 0 + u8 p 2 - 1) (hforeign : ¬ ForeignRun l (u16 p 0) (u8 p 2)) :
    checkReadCounter l p = .ok (u16 p 0, u8 p 2) := by
  rw [checkReadCounter, if_neg (not_not_intro hp), if_neg hcount, if_neg hrange,
    if_neg (mt (any_forbidden_iff_foreignRun (by omega)).mp hforeign)]

end Checks

/-! #### The request -/

theorem exec_readCounter {l : Link} {p : List Byte} {s : State} (hw : Waits l 0x73#8 p s) :
    exec (.readCounter l) s = .next (readCounterRequest l p (dropOldest l s)) :=
  takeRequest_waits (isKind := (· == Kind.readCounter)) hw rfl fun m => readCounterRequest l m.payload

theorem exec_readCounter_refuses {l : Link} {p : List Byte} {s : State} {code : ResultCode} (hw : Waits l 0x73#8 p s)
    (hc : checkReadCounter l p = .error code) :
    exec (.readCounter l) s = .next (answered l (refusal 0x73#8 code) s) := by
  rw [exec_readCounter hw]
  simp only [readCounterRequest, hc, refuse_dropOldest, Kind.readCounter]

theorem exec_readCounter_returns {l : Link} {p : List Byte} {s : State} {first count : Nat} (hw : Waits l 0x73#8 p s)
    (hc : checkReadCounter l p = .ok (first, count)) :
    exec (.readCounter l) s =
      .next (answered l (acceptance 0x73#8 false (.counters first (counterValues s first count))) s) := by
  rw [exec_readCounter hw]
  simp only [readCounterRequest, hc, accept_dropOldest, counterAt_dropOldest, counterValues, Kind.readCounter]

/-- Settles O48: one case for each outcome of the checks, and the counters of the run. -/
theorem countersReadBack : Obligations.CountersReadBack := by
  intro l p s hw hp
  refine ⟨counterValues s (u16 p 0) (u8 p 2), ?response, length_counterValues .., fun _ => counterValues_getElem?⟩
  case response =>
    by_cases hcount : u8 p 2 = 0 ∨ 32 < u8 p 2
    · rw [if_pos hcount, exec_readCounter_refuses hw (checkReadCounter_badField hp hcount)]
    rw [if_neg hcount]
    by_cases hrange : 156 < u16 p 0 + u8 p 2 - 1
    · rw [if_pos hrange, exec_readCounter_refuses hw (checkReadCounter_badIndex hp hcount hrange)]
    rw [if_neg hrange]
    by_cases hforeign : ForeignRun l (u16 p 0) (u8 p 2)
    · rw [if_pos hforeign, exec_readCounter_refuses hw (checkReadCounter_notPermitted hp hcount hrange hforeign)]
    · rw [if_neg hforeign, exec_readCounter_returns hw (checkReadCounter_ok hp hcount hrange hforeign)]

end Sys2Proof.Proofs

/-! ### What a command does, said once

Every command leaves the part as it is, or acts on it in one of the ways listed in `Moves`. Invariants and frames are
proved by cases on it. -/
namespace Sys2Proof.Proofs

open Sys2Proof.Machine

/-! #### Requests and events -/

/-- What a request command makes of the message it takes. -/
def carryOut (m : Message) : Instr → State → State
  | .stageNodes l, s => stageRequest l Kind.stageNodes (checkStageNodes l s m.payload) s
  | .stageSeam l, s => stageRequest l Kind.stageSeam (checkStageSeam l s m.payload) s
  | .dropSeam l, s => stageRequest l Kind.dropSeam (checkDropSeam l s m.payload) s
  | .stageChannel l, s => stageRequest l Kind.stageChannel (checkStageChannel l s m.payload) s
  | .stageFloor l, s => stageRequest l Kind.stageFloor (checkStageFloor l m.payload) s
  | .stageLut l, s => stageRequest l Kind.stageLut (checkStageLut l s m.payload) s
  | .discard l, s => discardRequest l m.payload s
  | .commit l, s => commitRequest l m.payload s
  | .abortCommit l o, s => abortRequest l o m.payload s
  | .enroll l, s => enrollmentRequest l Kind.enroll BarrierChannel.enroll m.payload s
  | .withdraw l, s => enrollmentRequest l Kind.withdraw BarrierChannel.withdraw m.payload s
  | .setBarrier l, s => setBarrierRequest l m.payload s
  | .setCadence l, s => setCadenceRequest l m.payload s
  | .fade l, s => fadeRequest l m.payload s
  | .outputOn l, s => outputsRequest l Kind.outputOn OutputState.turnOn m.payload s
  | .outputOff l, s => outputsRequest l Kind.outputOff OutputState.turnOff m.payload s
  | .setTiming l k, s => setTimingRequest l k m.payload s
  | .setRaster l, s => setRasterRequest l m.payload s
  | .setMode l, s => setModeRequest l m.payload s
  | .restart l o, s => restartRequest l o m.payload s
  | .setNotices l, s => setNoticesRequest l m.payload s
  | .readNodes l, s => readNodesRequest l m.payload s
  | .readSeam l, s => readSeamRequest l m.payload s
  | .readStatus l, s => readStatusRequest l m.payload s
  | .readCounter l, s => readCounterRequest l m.payload s
  | .unknownKind l, s => refuse l m.kind .unknownKind s
  | _, s => s

/-- The KINDs a request command takes. -/
def acceptsKind (i : Instr) (k : Byte) : Bool := match requestKind i with
  | some k' => k == k'
  | none => !requestKinds.contains k

/-- What a completed phase does, where the engine is in that phase. -/
def completed (st : CommitState) (act : CurrentCommit → State → State) (s : State) : State :=
  match s.engine.current with
  | none => s
  | some c => if s.engine.state = st then act c s else s

/-- What an event does to a part that takes it. -/
def happen : Instr → State → State
  | .stagingTurn, s => stagingTurnStep s
  | .applyingCompletes, s => completed .applying finishApplying s
  | .checkingCompletes, s => completed .checking finishChecking s
  | .normalizingCompletes, s => completed .normalizing finishNormalizing s
  | .flooringCompletes, s => completed .flooring finishFlooring s
  | .liftingCompletes, s => completed .lifting finishLifting s
  | .outputFrameStart race, s => takeStart race periodElapsed s
  | .substituteFrameStart race, s => takeStart race substituteDue s
  | .eligibleFrameStart race, s => if s.barrier.cadence = 0 then takeStart race ownStart s else s
  | .forcedRelease race, s => if decision s = .forced then takeStart race ownStart s else s
  | .stall c race, s => if stalls (decision s) s c then takeStart race ownStart s else s
  | .inputLost c race, s => if lossDue race s c then takeStart race ownStart s else s
  | .pixelDelivery c, s => deliverPixel c s
  | .frameHeader c tag, s => takeHeader c tag s
  | .line c ps, s => takeLine c ps s
  | .frameEnd c, s => takeFrameEnd c s
  | .refEdge time race, s => takeEdge time race s
  | .holdoverEntry, s => enterHoldover s
  | .linkByte l b, s => takeByte l b s
  | .gapTimerExpiry l, s => takeGap l s
  | .linkBreak l, s => takeBreak l s
  | .linkBreakEnd l, s => takeBreakEnd l s
  | .messageTransmit l n, s => { s with ports := upd s.ports l (Port.transmit n) }
  | _, s => s

theorem exec_request {i : Instr} {l : Link} (h : requestLink i = some l) (s : State) :
    exec i s = takeRequest l (acceptsKind i) (fun m => carryOut m i) s := by
  cases i <;> cases h <;> rfl

theorem exec_event {i : Instr} (h : requestLink i = none) (hr : i ≠ .hardReset) (he : i ≠ .hardResetEnd) (s : State) :
    exec i s = takeEvent s (happen i) := by
  cases i with
  | hardReset => exact absurd rfl hr
  | hardResetEnd => exact absurd rfl he
  | _ => cases h <;> rfl

theorem takesKind_of_acceptsKind {i : Instr} {l : Link} {k : Byte} (hl : requestLink i = some l)
    (h : acceptsKind i k = true) : takesKind i k := by
  cases i with
  | unknownKind l => exact .inr ⟨⟨l, rfl⟩, (by simpa [acceptsKind, requestKind] using h : k ∉ requestKinds)⟩
  | _ => cases hl <;> exact .inl (congrArg some (beq_iff_eq.mp h)).symm

theorem acceptsKind_of_takesKind {i : Instr} {k : Byte} (h : takesKind i k) : acceptsKind i k = true := by
  rcases h with h | ⟨⟨l, rfl⟩, h⟩
  · simp [acceptsKind, h]
  · have hk : k ∉ requestKinds := h
    simpa [acceptsKind, requestKind] using hk

/-- A waiting request of the command's KIND is taken. -/
theorem exec_takes {i : Instr} {l : Link} {k : Byte} {p : List Byte} {s : State} (hl : requestLink i = some l)
    (hk : takesKind i k) (hw : Waits l k p s) :
    exec i s = .next (carryOut { kind := k, payload := p } i (dropOldest l s)) := by
  rw [exec_request hl]
  exact takeRequest_waits hw (acceptsKind_of_takesKind hk) _

/-! #### The ports and the counters alone -/

section Frames

variable (s : State) (l : Link) (r : Response)

@[simp] theorem answered_resetHeld : (answered l r s).resetHeld = s.resetHeld := rfl
@[simp] theorem answered_mode : (answered l r s).mode = s.mode := rfl
@[simp] theorem answered_tables : (answered l r s).tables = s.tables := rfl
@[simp] theorem answered_staging : (answered l r s).staging = s.staging := rfl
@[simp] theorem answered_engine : (answered l r s).engine = s.engine := rfl
@[simp] theorem answered_receivers : (answered l r s).receivers = s.receivers := rfl
@[simp] theorem answered_barrier : (answered l r s).barrier = s.barrier := rfl
@[simp] theorem answered_timing : (answered l r s).timing = s.timing := rfl
@[simp] theorem answered_fade : (answered l r s).fade = s.fade := rfl
@[simp] theorem answered_engines : (answered l r s).engines = s.engines := rfl
@[simp] theorem answered_counters : (answered l r s).counters = s.counters := rfl
@[simp] theorem answered_pending : (answered l r s).pending = s.pending := rfl

variable (ns : List (Link × NoticeBody))

@[simp] theorem handAll_resetHeld : (handAll ns s).resetHeld = s.resetHeld := by rw [handAll_eq]
@[simp] theorem handAll_mode : (handAll ns s).mode = s.mode := by rw [handAll_eq]
@[simp] theorem handAll_tables : (handAll ns s).tables = s.tables := by rw [handAll_eq]
@[simp] theorem handAll_staging : (handAll ns s).staging = s.staging := by rw [handAll_eq]
@[simp] theorem handAll_engine : (handAll ns s).engine = s.engine := by rw [handAll_eq]
@[simp] theorem handAll_receivers : (handAll ns s).receivers = s.receivers := by rw [handAll_eq]
@[simp] theorem handAll_barrier : (handAll ns s).barrier = s.barrier := by rw [handAll_eq]
@[simp] theorem handAll_timing : (handAll ns s).timing = s.timing := by rw [handAll_eq]
@[simp] theorem handAll_fade : (handAll ns s).fade = s.fade := by rw [handAll_eq]
@[simp] theorem handAll_engines : (handAll ns s).engines = s.engines := by rw [handAll_eq]
@[simp] theorem handAll_pending : (handAll ns s).pending = s.pending := by rw [handAll_eq]

end Frames

/-- What a notice does to a port does not depend on the receive buffer. -/
theorem portHand_buffer (p : Port) (q : List Message) (ch : Option Channel) (b : NoticeBody) :
    ({ p with buffer := q } : Port).hand ch b = ({ (p.hand ch b).1 with buffer := q }, (p.hand ch b).2) := by
  have hcoalesce : ({ p with buffer := q } : Port).coalesce ch b = p.coalesce ch b := rfl
  simp only [Port.hand, hcoalesce]
  split
  · rfl
  · split
    · rfl
    · cases p.coalesce ch b <;> rfl

theorem put_comm {α : Type} {n : Nat} (v : Vector α n) {i j : Fin n} (h : i ≠ j) (x y : α) :
    put (put v i x) j y = put (put v j y) i x :=
  Vector.set_comm x y fun e => h (Fin.ext e)

@[simp] theorem withPort_same (l : Link) (p : Port) (s : State) : (withPort l p s).ports[l] = p := by
  simp [withPort]

theorem withPort_other {l m : Link} (h : l ≠ m) (p : Port) (s : State) : (withPort l p s).ports[m] = s.ports[m] := by
  simp [withPort, Fin.val_ne_of_ne h]

@[simp] theorem withPort_withPort (l : Link) (p q : Port) (s : State) :
    withPort l q (withPort l p s) = withPort l q s := by
  simp [withPort]

theorem withPort_comm {l m : Link} (h : l ≠ m) (p q : Port) (s : State) :
    withPort m q (withPort l p s) = withPort l p (withPort m q s) := by
  simp [withPort, put_comm _ h]

theorem dropOldest_eq (l : Link) (s : State) :
    dropOldest l s = withPort l { s.ports[l] with buffer := s.ports[l].buffer.tail } s := rfl

/-- A notice changes a port and perhaps counts a loss. -/
theorem hand_withPort (m : Link) (b : NoticeBody) (s : State) :
    hand m b s = if (s.ports[m].hand (noticeChannel m b) b).2 = true then
        counted (Counter.ofLink m 3) (withPort m (s.ports[m].hand (noticeChannel m b) b).1 s)
      else withPort m (s.ports[m].hand (noticeChannel m b) b).1 s := rfl

/-- The receive buffer of a link and a notice handed do not meet. -/
theorem hand_dropOldest (m l : Link) (b : NoticeBody) (s : State) :
    hand m b (dropOldest l s) = dropOldest l (hand m b s) := by
  have hflag : ((dropOldest l s).ports[m].hand (noticeChannel m b) b).2 =
      (s.ports[m].hand (noticeChannel m b) b).2 := by
    by_cases h : l = m
    · rw [dropOldest_eq, h, withPort_same, portHand_buffer]
    · rw [dropOldest_eq, withPort_other h]
  have hport : withPort m ((dropOldest l s).ports[m].hand (noticeChannel m b) b).1 (dropOldest l s) =
      dropOldest l (withPort m (s.ports[m].hand (noticeChannel m b) b).1 s) := by
    rw [dropOldest_eq, dropOldest_eq]
    by_cases h : l = m
    · subst h
      have hbuffer : (s.ports[l].hand (noticeChannel l b) b).1.buffer = s.ports[l].buffer := by
        rw [Port.hand_held s.ports[l] (noticeChannel l b) b]
      rw [withPort_same, withPort_same, portHand_buffer, withPort_withPort, withPort_withPort, hbuffer]
    · rw [withPort_other h, withPort_other (Ne.symm h), withPort_comm h]
  rw [hand_withPort, hand_withPort, hflag, hport]
  split <;> rfl

theorem handAll_dropOldest (l : Link) (ns : List (Link × NoticeBody)) :
    ∀ s : State, handAll ns (dropOldest l s) = dropOldest l (handAll ns s) := by
  induction ns with
  | nil => exact fun _ => rfl
  | cons n ns ih => exact fun s => by rw [handAll, hand_dropOldest, ih, handAll]

/-! #### The requests -/

/-- The check of a staging request. -/
def stagingCheck (s : State) (p : List Byte) : Instr → Option (Except ResultCode (Edit × Bool))
  | .stageNodes l => some (checkStageNodes l s p)
  | .stageSeam l => some (checkStageSeam l s p)
  | .dropSeam l => some (checkDropSeam l s p)
  | .stageChannel l => some (checkStageChannel l s p)
  | .stageFloor l => some (checkStageFloor l p)
  | .stageLut l => some (checkStageLut l s p)
  | _ => none

/-- What an accepted request changes, besides its port, where it hands no notice and does not restart the part. -/
inductive Edited (p : List Byte) (s : State) : Instr → State → Prop
  | discards {l : Link} {d : DiscardSelector} (h : checkDiscard l s p = .ok d) :
    Edited p s (.discard l) { s with staging := s.staging.discard d }
  | commits {l : Link} (hm : heldTile l s = false) (h : s.engine.state = .idle) : Edited p s (.commit l) (startCommit l s)
  | enrolls {l : Link} {m : Nat} (h : checkChannels l p = .ok m) :
    Edited p s (.enroll l) (updNamed m BarrierChannel.enroll s)
  | withdraws {l : Link} {m : Nat} (h : checkChannels l p = .ok m) :
    Edited p s (.withdraw l) (updNamed m BarrierChannel.withdraw s)
  | barrier {l : Link} {f : BarrierFields} (h : checkSetBarrier l p = .ok f) :
    Edited p s (.setBarrier l) { s with barrier := s.barrier.setFields f }
  | cadence {l : Link} {k : Nat} (h : checkSetCadence l p = .ok k) :
    Edited p s (.setCadence l) { s with barrier := { s.barrier with reload := k } }
  | fades {l : Link} : Edited p s (.fade l)
    { s with fade := { s.fade with target := min 4096 (u16 p 0), remaining := min 4095 (u16 p 2) } }
  | outputsOn {l : Link} {m : Nat} (h : checkOutputs l p = .ok m) :
    Edited p s (.outputOn l) { s with timing := s.timing.updOutputs m OutputState.turnOn }
  | outputsOff {l : Link} {m : Nat} (h : checkOutputs l p = .ok m) :
    Edited p s (.outputOff l) { s with timing := s.timing.updOutputs m OutputState.turnOff }
  | raster {l : Link} (h : ¬ (u16 p 0 < 640 ∨ 2560 < u16 p 0 ∨ u16 p 2 < 480 ∨ 1600 < u16 p 2)) :
    Edited p s (.setRaster l) { s with timing := { s.timing with width := u16 p 0, height := u16 p 2 } }
  | mode {l : Link} {m : Mode} : Edited p s (.setMode l) { s with mode := m }
  | mask {l : Link} : Edited p s (.setNotices l) { s with ports := upd s.ports l fun q => { q with mask := noticeMaskOf p } }

/-- The timing that a SET_TIMING leaves. -/
def timingChosen (taking : TimingTaking) (choice : TimingChoice) (s : State) : Timing :=
  { s.timing.choose choice with clock := max s.timing.clock taking.time }

/-- What SET_TIMING answers. -/
def timingAnswer (t : Timing) : Response := acceptance Kind.setTiming false (.timing t.source t.state t.period)

/-- A SET_TIMING answered and notified, before any output frame start. -/
def timingSet (l : Link) (taking : TimingTaking) (choice : TimingChoice) (s : State) : State :=
  let t := timingChosen taking choice s
  match taking.order with
  | .responseFirst => notifyTiming s.timing.state (answered l (timingAnswer t) { s with timing := t })
  | .noticeFirst => answered l (timingAnswer t) (notifyTiming s.timing.state { s with timing := t })

/-- The part once ABORT_COMMIT is answered and notified. -/
def abortAnswered (l : Link) (o : Handing) (c : CurrentCommit) (s : State) : State :=
  let notices := commitHands c.link (.aborted c.link c.count s.engine.state (.abortCommit l))
  let r := acceptance Kind.abortCommit false (.abortedIn s.engine.state)
  match o with
  | .responseFirst => handAll notices (answered l r (abandonCommit c s))
  | .noticeFirst => answered l r (handAll notices (abandonCommit c s))

/-- What a request taken leaves. -/
inductive Carried (m : Message) (s : State) : Instr → State → Prop
  | answers {i : Instr} {l : Link} {r : Response} (hl : requestLink i = some l) (hr : r.kind = m.kind) :
    Carried m s i (answered l r s)
  | presents {i : Instr} {l : Link} {e : Edit} {clamped : Bool} (hl : requestLink i = some l)
    (h : stagingCheck s m.payload i = some (.ok (e, clamped))) : Carried m s i (presented l m.kind e clamped s)
  | accepts {i : Instr} {l : Link} {clamped part : Bool} {b : Body} {t : State} (hl : requestLink i = some l)
    (h : Edited m.payload s i t) :
    Carried m s i (answered l { kind := m.kind, code := .accepted, clamped := clamped, isPartial := part, body := b } t)
  | aborts {l : Link} {o : Handing} {c : CurrentCommit} (hc : s.engine.current = some c) (hs : s.engine.state ≠ .idle) :
    Carried m s (.abortCommit l o) (abortAnswered l o c s)
  | timing {l : Link} {taking : TimingTaking} {choice : TimingChoice} (hl : l = SL)
    (h : checkSetTiming l m.payload = .ok choice) (ho : (timingChosen taking choice s).overdue = false) :
    Carried m s (.setTiming l taking) (timingSet l taking choice s)
  | timingStarts {l : Link} {taking : TimingTaking} {choice : TimingChoice} (hl : l = SL)
    (h : checkSetTiming l m.payload = .ok choice) (ho : (timingChosen taking choice s).overdue = true) :
    Carried m s (.setTiming l taking) (takeStart taking.race periodElapsed (timingSet l taking choice s))
  | restarts {o : Handing} :
    Carried m s (.restart SL o) (restart o (answered SL (acceptance Kind.restart false .empty) s))

section Requests

variable {m : Message} {s : State} {l : Link} {k : Byte}

theorem carried_responds {i : Instr} {r : Response} (hl : requestLink i = some l) (hr : r.kind = m.kind) :
    Carried m s i (respond l r (dropOldest l s)) := by
  rw [respond_dropOldest]
  exact .answers hl hr

theorem carried_refuses {i : Instr} {code : ResultCode} (hl : requestLink i = some l) (hm : m.kind = k) :
    Carried m s i (refuse l k code (dropOldest l s)) :=
  carried_responds hl hm.symm

theorem carried_edits {i : Instr} {t : State} {clamped part : Bool} {b : Body} (hl : requestLink i = some l)
    (hm : m.kind = k) (h : Edited m.payload s i t) :
    Carried m s i
      (respond l { kind := k, code := .accepted, clamped := clamped, isPartial := part, body := b } (dropOldest l t)) := by
  rw [respond_dropOldest, ← hm]
  exact .accepts hl h

theorem carried_stage {i : Instr} {checked : Except ResultCode (Edit × Bool)} (hl : requestLink i = some l)
    (hm : m.kind = k) (hc : stagingCheck s m.payload i = some checked) :
    Carried m s i (stageRequest l k checked (dropOldest l s)) := by
  cases checked with
  | error code => exact carried_refuses hl hm
  | ok e =>
    rw [stageRequest, present_dropOldest, ← hm]
    exact .presents hl hc

theorem carried_discard (hm : m.kind = Kind.discard) :
    Carried m s (.discard l) (discardRequest l m.payload (dropOldest l s)) := by
  rw [discardRequest, checkDiscard_dropOldest]
  split
  · exact carried_refuses rfl hm
  · exact carried_edits (l := l) rfl hm (.discards ‹_›)

theorem carried_commit (hm : m.kind = Kind.commit) :
    Carried m s (.commit l) (commitRequest l m.payload (dropOldest l s)) := by
  unfold commitRequest
  split
  · exact carried_refuses rfl hm
  split
  · exact carried_refuses rfl hm
  split
  · exact carried_responds rfl hm.symm
  · rename_i hheld hstate
    exact carried_edits (l := l) rfl hm (.commits (s := s) (Bool.eq_false_iff.mpr hheld) (not_not.mp hstate))

theorem carried_abort {o : Handing} (hm : m.kind = Kind.abortCommit) :
    Carried m s (.abortCommit l o) (abortRequest l o m.payload (dropOldest l s)) := by
  unfold abortRequest
  split
  · exact carried_refuses rfl hm
  split
  · exact carried_refuses rfl hm
  split
  · exact carried_refuses rfl hm
  split
  · exact carried_refuses rfl hm
  · rename_i c hc hs _
    have hdrop : abandonCommit c (dropOldest l s) = dropOldest l (abandonCommit c s) := rfl
    have hcarried := Carried.aborts (m := m) (s := s) (l := l) (o := o) hc hs
    cases o <;>
      simpa only [abortAnswered, hdrop, handAll_dropOldest, accept_dropOldest, dropOldest_engine] using hcarried

theorem carried_barrier (hm : m.kind = Kind.setBarrier) :
    Carried m s (.setBarrier l) (setBarrierRequest l m.payload (dropOldest l s)) := by
  unfold setBarrierRequest
  split
  · exact carried_refuses rfl hm
  · exact carried_edits (l := l) rfl hm (.barrier ‹_›)

theorem carried_cadence (hm : m.kind = Kind.setCadence) :
    Carried m s (.setCadence l) (setCadenceRequest l m.payload (dropOldest l s)) := by
  unfold setCadenceRequest
  split
  · exact carried_refuses rfl hm
  · exact carried_edits (l := l) rfl hm (.cadence ‹_›)

theorem carried_fade (hm : m.kind = Kind.fade) :
    Carried m s (.fade l) (fadeRequest l m.payload (dropOldest l s)) := by
  unfold fadeRequest
  split
  · exact carried_refuses rfl hm
  split
  · exact carried_refuses rfl hm
  · exact carried_edits (l := l) rfl hm .fades

theorem carried_raster (hm : m.kind = Kind.setRaster) :
    Carried m s (.setRaster l) (setRasterRequest l m.payload (dropOldest l s)) := by
  unfold setRasterRequest
  dsimp only
  split
  · exact carried_refuses rfl hm
  split
  · exact carried_refuses rfl hm
  split
  · exact carried_refuses rfl hm
  split
  · exact carried_refuses rfl hm
  split
  · exact carried_refuses rfl hm
  · exact carried_edits (l := l) rfl hm (.raster ‹_›)

theorem carried_mode (hm : m.kind = Kind.setMode) :
    Carried m s (.setMode l) (setModeRequest l m.payload (dropOldest l s)) := by
  unfold setModeRequest
  split
  · exact carried_refuses rfl hm
  split
  · exact carried_refuses rfl hm
  split
  · exact carried_refuses rfl hm
  · exact carried_edits (l := l) rfl hm .mode

/-- The mask and the receive buffer of a port do not meet. -/
theorem mask_dropOldest (l : Link) (mask : NoticeMask) (s : State) :
    { dropOldest l s with ports := upd (dropOldest l s).ports l fun q => { q with mask := mask } } =
      dropOldest l { s with ports := upd s.ports l fun q => { q with mask := mask } } := by
  simp only [dropOldest, upd_upd]

theorem carried_notices (hm : m.kind = Kind.setNotices) :
    Carried m s (.setNotices l) (setNoticesRequest l m.payload (dropOldest l s)) := by
  unfold setNoticesRequest
  split
  · exact carried_refuses rfl hm
  split
  · exact carried_refuses rfl hm
  · rw [mask_dropOldest]
    exact carried_edits (l := l) rfl hm .mask

theorem carried_restart {o : Handing} (hm : m.kind = Kind.restart) :
    Carried m s (.restart l o) (restartRequest l o m.payload (dropOldest l s)) := by
  unfold restartRequest
  split
  · exact carried_refuses rfl hm
  split
  · exact carried_refuses rfl hm
  · rename_i hl
    obtain rfl : l = SL := not_not.mp hl
    rw [accept_dropOldest]
    exact .restarts

/-- SET_TIMING answered and notified: the request gone, and the two messages in their order. -/
theorem answerTiming_dropOldest (taking : TimingTaking) (choice : TimingChoice) :
    answerTiming l taking.order (timingChosen taking choice (dropOldest l s)) (dropOldest l s) =
      timingSet l taking choice s := by
  have hnotify (prev : TimingState) (t : State) :
      notifyTiming prev (dropOldest l t) = dropOldest l (notifyTiming prev t) := by
    simp only [notifyTiming, dropOldest_timing, hand_dropOldest]
    split <;> rfl
  have hset (t : Timing) : { dropOldest l s with timing := t } = dropOldest l { s with timing := t } := rfl
  unfold answerTiming timingSet
  rw [show timingChosen taking choice (dropOldest l s) = timingChosen taking choice s from rfl]
  cases taking.order <;> simp only [hset, hnotify, accept_dropOldest, timingAnswer, dropOldest_timing]

/-- A TIMING notice leaves the timing as it is. -/
@[simp] theorem notifyTiming_timing (prev : TimingState) (s : State) : (notifyTiming prev s).timing = s.timing := by
  unfold notifyTiming
  split
  · rfl
  · rw [hand_eq]

theorem timingSet_timing (taking : TimingTaking) (choice : TimingChoice) :
    (timingSet l taking choice s).timing = timingChosen taking choice s := by
  unfold timingSet
  cases taking.order <;> simp

theorem carried_timing {taking : TimingTaking} (hm : m.kind = Kind.setTiming) :
    Carried m s (.setTiming l taking) (setTimingRequest l taking m.payload (dropOldest l s)) := by
  unfold setTimingRequest
  split
  · exact carried_refuses rfl hm
  · rename_i choice hc
    have hl : l = SL := by
      by_contra hl
      rw [checkSetTiming, if_pos hl] at hc
      split at hc <;> cases hc
    have ht : ({ (dropOldest l s).timing.choose choice with clock := max (dropOldest l s).timing.clock taking.time } : Timing) =
        timingChosen taking choice (dropOldest l s) := rfl
    rw [ht]
    dsimp only
    rw [answerTiming_dropOldest]
    split
    · exact .timingStarts hl hc ‹_›
    · rename_i ho
      exact .timing hl hc (Bool.eq_false_iff.mpr ho)

theorem carried_enrollment {i : Instr} {f : BarrierChannel → BarrierChannel} (hl : requestLink i = some l)
    (hm : m.kind = k) (h : ∀ n, checkChannels l m.payload = .ok n → Edited m.payload s i (updNamed n f s)) :
    Carried m s i (enrollmentRequest l k f m.payload (dropOldest l s)) := by
  unfold enrollmentRequest
  split
  · exact carried_refuses hl hm
  · exact carried_edits (l := l) hl hm (h _ ‹_›)

theorem carried_outputs {i : Instr} {f : OutputState → OutputState} (hl : requestLink i = some l) (hm : m.kind = k)
    (h : ∀ n, checkOutputs l m.payload = .ok n →
      Edited m.payload s i { s with timing := s.timing.updOutputs n f }) :
    Carried m s i (outputsRequest l k f m.payload (dropOldest l s)) := by
  unfold outputsRequest
  split
  · exact carried_refuses hl hm
  · exact carried_edits (l := l) hl hm (h _ ‹_›)

theorem carried_readNodes (hm : m.kind = Kind.readNodes) :
    Carried m s (.readNodes l) (readNodesRequest l m.payload (dropOldest l s)) := by
  unfold readNodesRequest
  split
  · exact carried_refuses rfl hm
  · exact carried_responds rfl hm.symm

theorem carried_readSeam (hm : m.kind = Kind.readSeam) :
    Carried m s (.readSeam l) (readSeamRequest l m.payload (dropOldest l s)) := by
  unfold readSeamRequest
  split
  · exact carried_refuses rfl hm
  split
  · exact carried_responds rfl hm.symm
  · exact carried_responds rfl hm.symm

theorem carried_readStatus (hm : m.kind = Kind.readStatus) :
    Carried m s (.readStatus l) (readStatusRequest l m.payload (dropOldest l s)) := by
  unfold readStatusRequest
  split
  · exact carried_refuses rfl hm
  · exact carried_responds rfl hm.symm
  · exact carried_responds rfl hm.symm

theorem carried_readCounter (hm : m.kind = Kind.readCounter) :
    Carried m s (.readCounter l) (readCounterRequest l m.payload (dropOldest l s)) := by
  unfold readCounterRequest
  split
  · exact carried_refuses rfl hm
  · exact carried_responds rfl hm.symm

end Requests

theorem kind_of_takesKind {i : Instr} {k k' : Byte} (h : takesKind i k) (hi : requestKind i = some k') : k = k' := by
  rcases h with h | ⟨⟨l, rfl⟩, _⟩
  · exact Option.some.inj (h.symm.trans hi)
  · cases hi

/-- What a request command makes of its message is one of the ways of `Carried`. -/
theorem carryOut_carried {i : Instr} {l : Link} {m : Message} (hl : requestLink i = some l) (hk : takesKind i m.kind)
    (s : State) : Carried m s i (carryOut m i (dropOldest l s)) := by
  have hm {k : Byte} : requestKind i = some k → m.kind = k := kind_of_takesKind hk
  cases i <;> cases hl
  case stageNodes => exact carried_stage rfl (hm rfl) rfl
  case stageSeam => exact carried_stage rfl (hm rfl) rfl
  case dropSeam => exact carried_stage rfl (hm rfl) rfl
  case stageChannel => exact carried_stage rfl (hm rfl) rfl
  case stageFloor => exact carried_stage rfl (hm rfl) rfl
  case stageLut => exact carried_stage rfl (hm rfl) rfl
  case discard => exact carried_discard (hm rfl)
  case commit => exact carried_commit (hm rfl)
  case abortCommit => exact carried_abort (hm rfl)
  case enroll => exact carried_enrollment rfl (hm rfl) fun _ => .enrolls
  case withdraw => exact carried_enrollment rfl (hm rfl) fun _ => .withdraws
  case setBarrier => exact carried_barrier (hm rfl)
  case setCadence => exact carried_cadence (hm rfl)
  case fade => exact carried_fade (hm rfl)
  case outputOn => exact carried_outputs rfl (hm rfl) fun _ => .outputsOn
  case outputOff => exact carried_outputs rfl (hm rfl) fun _ => .outputsOff
  case setTiming => exact carried_timing (hm rfl)
  case setRaster => exact carried_raster (hm rfl)
  case setMode => exact carried_mode (hm rfl)
  case restart => exact carried_restart (hm rfl)
  case setNotices => exact carried_notices (hm rfl)
  case readNodes => exact carried_readNodes (hm rfl)
  case readSeam => exact carried_readSeam (hm rfl)
  case readStatus => exact carried_readStatus (hm rfl)
  case readCounter => exact carried_readCounter (hm rfl)
  case unknownKind => exact carried_refuses rfl rfl

end Sys2Proof.Proofs

/-! ### When an output frame start is taken (R138, R161, R166, R167)

The model decides by computation what the statements say by quantifiers over channels. -/
namespace Sys2Proof.Proofs

open Sys2Proof.Machine

section Decision

variable (s : State)

theorem mem_channels (c : Channel) : c ∈ channels := (by decide : ∀ c : Channel, c ∈ channels) c

theorem participates_iff (c : Channel) : participates s c = true ↔ InP s c := by
  simp [participates, InP]

theorem isReady_iff (c : Channel) : isReady s c = true ↔ Ready s c := Receiver.bankIn_isSome _ _

theorem participants_eq_nil_iff : participants s = [] ↔ ∀ c, ¬ InP s c := by
  simp only [participants, List.filter_eq_nil_iff, participates_iff]
  exact ⟨fun h c => h c (mem_channels c), fun h c _ => h c⟩

theorem participants_all_ready_iff : (participants s).all (isReady s) = true ↔ ∀ c, InP s c → Ready s c := by
  simp only [participants, List.all_eq_true, List.mem_filter, participates_iff, isReady_iff]
  exact ⟨fun h c hc => h c ⟨mem_channels c, hc⟩, fun h c hc => h c hc.2⟩

/-- ω reaches θ (R138). -/
abbrev WaitedOut : Prop := s.barrier.timeout ≠ 0 ∧ s.barrier.timeout ≤ min 65535 (s.barrier.waitCount + 1)

variable {s}

theorem decision_notEligible (h : s.barrier.cadence ≠ 0) : decision s = .notEligible := if_pos h

theorem decision_emptySet (h : s.barrier.cadence = 0) (hp : ∀ c, ¬ InP s c) : decision s = .emptySet := by
  rw [decision, if_neg (not_not.mpr h), if_pos ((participants_eq_nil_iff s).mpr hp)]

theorem decision_normal (h : s.barrier.cadence = 0) (hp : ∃ c, InP s c) (hr : ∀ c, InP s c → Ready s c) :
    decision s = .normal := by
  obtain ⟨c, hc⟩ := hp
  rw [decision, if_neg (not_not.mpr h), if_neg fun hn => (participants_eq_nil_iff s).mp hn c hc,
    if_pos ((participants_all_ready_iff s).mpr hr)]

theorem decision_forced (h : s.barrier.cadence = 0) (hp : ∃ c, InP s c ∧ ¬ Ready s c) (hw : WaitedOut s) :
    decision s = .forced := by
  obtain ⟨c, hc, hr⟩ := hp
  rw [decision, if_neg (not_not.mpr h), if_neg fun hn => (participants_eq_nil_iff s).mp hn c hc,
    if_neg fun ha => hr ((participants_all_ready_iff s).mp ha c hc)]
  exact if_pos hw

theorem decision_hold (h : s.barrier.cadence = 0) (hp : ∃ c, InP s c ∧ ¬ Ready s c) (hw : ¬ WaitedOut s) :
    decision s = .hold := by
  obtain ⟨c, hc, hr⟩ := hp
  rw [decision, if_neg (not_not.mpr h), if_neg fun hn => (participants_eq_nil_iff s).mp hn c hc,
    if_neg fun ha => hr ((participants_all_ready_iff s).mp ha c hc)]
  exact if_neg hw

variable (s)

/-- The five decisions, each with what it is taken on (R136, R138). -/
theorem decision_cases :
    (decision s = .notEligible ∧ s.barrier.cadence ≠ 0) ∨
    (decision s = .emptySet ∧ s.barrier.cadence = 0 ∧ ∀ c, ¬ InP s c) ∨
    (decision s = .normal ∧ s.barrier.cadence = 0 ∧ (∃ c, InP s c) ∧ ∀ c, InP s c → Ready s c) ∨
    (decision s = .forced ∧ s.barrier.cadence = 0 ∧ (∃ c, InP s c ∧ ¬ Ready s c) ∧ WaitedOut s) ∨
    (decision s = .hold ∧ s.barrier.cadence = 0 ∧ (∃ c, InP s c ∧ ¬ Ready s c) ∧ ¬ WaitedOut s) := by
  by_cases h : s.barrier.cadence = 0
  · by_cases hp : ∃ c, InP s c
    · by_cases hr : ∀ c, InP s c → Ready s c
      · exact .inr (.inr (.inl ⟨decision_normal h hp hr, h, hp, hr⟩))
      · have hu : ∃ c, InP s c ∧ ¬ Ready s c := by simpa only [not_forall, exists_prop] using hr
        by_cases hw : WaitedOut s
        · exact .inr (.inr (.inr (.inl ⟨decision_forced h hu hw, h, hu, hw⟩)))
        · exact .inr (.inr (.inr (.inr ⟨decision_hold h hu hw, h, hu, hw⟩)))
    · have hn : ∀ c, ¬ InP s c := not_exists.mp hp
      exact .inr (.inl ⟨decision_emptySet h hn, h, hn⟩)
  · exact .inl ⟨decision_notEligible h, h⟩

theorem decision_forced_iff : decision s = .forced ↔ ForcedDue s := by
  constructor
  · intro hd
    rcases decision_cases s with ⟨e, _⟩ | ⟨e, _⟩ | ⟨e, _⟩ | ⟨_, h, hu, hw⟩ | ⟨e, _⟩ <;> try (rw [e] at hd; cases hd)
    exact ⟨h, hu, hw⟩
  · rintro ⟨h, hu, hw⟩
    exact decision_forced h hu hw

theorem isRelease_iff : (decision s).isRelease = true ↔ ReleaseDue s := by
  rcases decision_cases s with ⟨e, h⟩ | ⟨e, h, hn⟩ | ⟨e, h, hp, hr⟩ | ⟨e, h, ⟨c, hc, hu⟩, hw⟩ | ⟨e, h, ⟨c, hc, hu⟩, hw⟩ <;>
    rw [e]
  · exact iff_of_false Bool.false_ne_true fun hd => h hd.1
  · exact iff_of_false Bool.false_ne_true fun hd => hd.2.1.elim hn
  · exact iff_of_true rfl ⟨h, hp, .inl hr⟩
  · exact iff_of_true rfl ⟨h, ⟨c, hc⟩, .inr hw⟩
  · exact iff_of_false Bool.false_ne_true fun hd => hd.2.2.elim (fun hr => hu (hr c hc)) hw

theorem instructsSwap_iff :
    (decision s).instructsSwap = true ↔ s.barrier.cadence = 0 ∧ (ReleaseDue s ∨ ∀ c, ¬ InP s c) := by
  rw [← isRelease_iff]
  rcases decision_cases s with ⟨e, h⟩ | ⟨e, h, hn⟩ | ⟨e, h, _⟩ | ⟨e, h, _⟩ | ⟨e, h, ⟨c, hc, hu⟩, hw⟩ <;> rw [e]
  · exact iff_of_false Bool.false_ne_true fun hd => h hd.1
  · exact iff_of_true rfl ⟨h, .inr hn⟩
  · exact iff_of_true rfl ⟨h, .inl rfl⟩
  · exact iff_of_true rfl ⟨h, .inl rfl⟩
  · exact iff_of_false Bool.false_ne_true fun hd => hd.2.elim Bool.false_ne_true fun hn => hn c hc

theorem swapTaken_eq_some_iff (k : CurrentCommit) : swapTaken (decision s) s = some k ↔ SwapDue s k := by
  unfold swapTaken armedCommit SwapDue
  rw [← instructsSwap_iff]
  constructor
  · intro h
    split at h
    · split at h
      · exact ⟨‹_›, h, ‹_›⟩
      · cases h
    · cases h
  · rintro ⟨harmed, hk, hd⟩
    rw [if_pos hd, if_pos harmed, hk]

theorem swapTaken_isSome_iff : (swapTaken (decision s) s).isSome = true ↔ AnySwap s := by
  rw [Option.isSome_iff_exists]
  simp only [swapTaken_eq_some_iff]
  constructor
  · rintro ⟨k, ha, hk, hd⟩
    exact ⟨ha, Option.isSome_iff_exists.mpr ⟨k, hk⟩, hd⟩
  · rintro ⟨ha, hk, hd⟩
    obtain ⟨k, hk⟩ := Option.isSome_iff_exists.mp hk
    exact ⟨k, ha, hk, hd⟩

theorem isLate_iff (c : Channel) :
    isLate (decision s) s c = true ↔ InP s c ∧ ¬ Ready s c ∧ ReleaseDue s := by
  simp only [isLate, Bool.and_eq_true, decide_eq_true_eq, decision_forced_iff, participates_iff, Bool.not_eq_true',
    ← isReady_iff, Bool.not_eq_true]
  constructor
  · rintro ⟨⟨⟨h, ⟨c', hc', hu'⟩, hw⟩, hc⟩, hu⟩
    exact ⟨hc, hu, h, ⟨c, hc⟩, .inr hw⟩
  · rintro ⟨hc, hu, h, _, hd⟩
    have hu' : ¬ Ready s c := by rw [← isReady_iff, hu]; exact Bool.false_ne_true
    exact ⟨⟨⟨h, ⟨c, hc, hu'⟩, hd.resolve_left fun hr => hu' (hr c hc)⟩, hc⟩, hu⟩

theorem stalls_iff (c : Channel) :
    stalls (decision s) s c = true ↔ (InP s c ∧ ¬ Ready s c ∧ ReleaseDue s) ∧ s.barrier.stallLimit ≠ 0 ∧
      s.barrier.stallLimit ≤ min 15 ((s.barrier.channels[c]).lateCount + 1) := by
  rw [stalls, Bool.and_eq_true, isLate_iff, decide_eq_true_iff]
  rfl

theorem headerTogether_iff (race : FrameRace) (c : Channel) : headerTogether race s c = true ↔ HeaderFirst race s c := by
  simp [headerTogether, Receiver.headerFresh, HeaderFirst]

theorem lossDue_iff (race : FrameRace) (c : Channel) : lossDue race s c = true ↔ LostNow race s c := by
  rw [lossDue, decide_eq_true_iff, ← Bool.not_eq_true, headerTogether_iff]
  exact and_congr_right fun _ => and_comm

end Decision

/-! #### The generator's next frame start -/

/-- The timing at a frame start taken one period after the previous one, or at once if that moment has passed (R161). -/
def periodTiming (t : Timing) : Timing :=
  { t with
    clock := max t.clock (t.lastFrameStart + t.period)
    lastFrameStart := max t.clock (t.lastFrameStart + t.period) }

/-- The timing at a substitute frame start, the last REF edge at `e` (R167). -/
def substituteTiming (e : Nat) (t : Timing) : Timing :=
  { t with
    clock := max t.clock (e + t.period + t.period / 256)
    lastFrameStart := max t.clock (e + t.period + t.period / 256)
    substituted := true }

/-- The timing at a frame start of the generator's own. -/
def ownTiming (t : Timing) : Timing := match t.state, t.lastEdge with
  | .locked, some e => substituteTiming e t
  | _, _ => periodTiming t

/-- The timing at a frame start that a REF edge brings (R166). -/
def edgeStartTiming (time : Nat) (t : Timing) : Timing :=
  { t with
    lastEdge := some (max t.clock time)
    clock := max t.clock time
    substituted := false
    lastFrameStart := max t.clock time }

/-- The timing at the frame start that a command takes. -/
def startTiming (t : Timing) : Instr → Timing
  | .refEdge time _ => edgeStartTiming time t
  | _ => ownTiming t

/-- The part at the frame start that a command takes, before any block acts. -/
def startState (i : Instr) (s : State) : State := { s with timing := startTiming s.timing i }

section Starts

variable {s : State} {race : FrameRace}

theorem ownTiming_unlocked {t : Timing} (h : t.state ≠ .locked) : ownTiming t = periodTiming t := by
  unfold ownTiming
  split
  · contradiction
  · rfl

theorem ownTiming_locked {t : Timing} {e : Nat} (h : t.state = .locked) (he : t.lastEdge = some e) :
    ownTiming t = substituteTiming e t := by
  simp only [ownTiming, h, he]

theorem periodElapsed_unlocked (h : s.timing.state ≠ .locked) :
    periodElapsed s = some { s with timing := ownTiming s.timing } := by
  rw [ownTiming_unlocked h]
  exact if_neg h

theorem periodElapsed_locked (h : s.timing.state = .locked) : periodElapsed s = none := if_pos h

theorem substituteDue_due (h : s.timing.state = .locked) (hs : s.timing.substituted = false)
    (he : s.timing.lastEdge.isSome = true) : substituteDue s = some { s with timing := ownTiming s.timing } := by
  obtain ⟨e, he⟩ := Option.isSome_iff_exists.mp he
  rw [substituteDue, if_pos ⟨h, hs⟩, ownTiming_locked h he]
  split
  · rename_i hn
    rw [he] at hn
    cases hn
  · rename_i e' he'
    rw [he] at he'
    cases he'
    rfl

theorem substituteDue_none
    (h : ¬ (s.timing.state = .locked ∧ s.timing.substituted = false ∧ s.timing.lastEdge.isSome = true)) :
    substituteDue s = none := by
  unfold substituteDue
  split
  · rename_i hs
    split
    · rfl
    · rename_i e he
      exact absurd ⟨hs.1, hs.2, by rw [he]; rfl⟩ h
  · rfl

theorem ownStart_due (h : OwnStart s) : ownStart s = some { s with timing := ownTiming s.timing } := by
  unfold ownStart
  by_cases hl : s.timing.state = .locked
  · obtain ⟨hs, he⟩ := h.resolve_left (not_not.mpr hl)
    rw [periodElapsed_locked hl]
    exact substituteDue_due hl hs he
  · rw [periodElapsed_unlocked hl]

theorem ownStart_none (h : ¬ OwnStart s) : ownStart s = none := by
  obtain ⟨hl, hs⟩ := not_or.mp h
  rw [ownStart, periodElapsed_locked (not_not.mp hl)]
  exact substituteDue_none fun hd => hs hd.2

theorem takeStart_some {start : State → Option State} {t : State} (h : start s = some t) :
    takeStart race start s = frameStart race t := by
  rw [takeStart, h]

theorem takeStart_none {start : State → Option State} (h : start s = none) : takeStart race start s = s := by
  rw [takeStart, h]

theorem edgeStarts_iff (i : Nat) : s.timing.edgeStarts i = true ↔
    s.timing.state = .locked ∧ s.timing.substituted = false ∧ (Config.minInterval ≤ i ∧ i ≤ Config.maxInterval) ∧
      i ≤ s.timing.period + s.timing.period / 256 ∧ s.timing.period ≤ i + s.timing.period / 256 := by
  simp only [Timing.edgeStarts, intervalInRange, withinTolerance, Bool.and_eq_true, decide_eq_true_eq, Bool.not_eq_true']
  tauto

end Starts

section Starts

variable {s : State} {race : FrameRace}

theorem edgeTiming_start {time e : Nat} (h : s.timing.state = .locked)
    (hi : Config.minInterval ≤ intervalAt s time e ∧ intervalAt s time e ≤ Config.maxInterval)
    (ht : intervalAt s time e ≤ s.timing.period + s.timing.period / 256 ∧
      s.timing.period ≤ intervalAt s time e + s.timing.period / 256) :
    ({ Timing.edge { s.timing with lastEdge := some (max s.timing.clock time), clock := max s.timing.clock time }
        (intervalAt s time e) with lastFrameStart := max s.timing.clock time } : Timing) =
      edgeStartTiming time s.timing := by
  have hin : intervalInRange (intervalAt s time e) = true := decide_eq_true hi
  have hnear : withinTolerance s.timing.period (intervalAt s time e) = true := decide_eq_true ht
  simp only [Timing.edge, h, hin, hnear, if_true, edgeStartTiming]

/-- The frame start that a command takes, on the part with the timing at that moment. -/
theorem exec_starts {i : Instr} (h : FrameStartTaken s i race) :
    exec i s = .next (frameStart race (startState i s)) := by
  cases i <;> try exact h.elim
  case outputFrameStart r =>
    obtain ⟨rfl, hr, hl⟩ := h
    exact (takeEvent_ready hr _).trans (congrArg _ (takeStart_some (periodElapsed_unlocked hl)))
  case substituteFrameStart r =>
    obtain ⟨rfl, hr, hl, hs, he⟩ := h
    exact (takeEvent_ready hr _).trans (congrArg _ (takeStart_some (substituteDue_due hl hs he)))
  case eligibleFrameStart r =>
    obtain ⟨rfl, hr, ho, hd⟩ := h
    refine (takeEvent_ready hr _).trans (congrArg _ ?_)
    rw [if_pos hd, takeStart_some (ownStart_due ho)]
    rfl
  case forcedRelease r =>
    obtain ⟨rfl, hr, ho, hd⟩ := h
    refine (takeEvent_ready hr _).trans (congrArg _ ?_)
    rw [if_pos ((decision_forced_iff s).mpr hd), takeStart_some (ownStart_due ho)]
    rfl
  case stall c r =>
    obtain ⟨rfl, hr, ho, ⟨hcad, hu, hw⟩, hc, hn, hd⟩ := h
    refine (takeEvent_ready hr _).trans (congrArg _ ?_)
    rw [if_pos ((stalls_iff s c).mpr ⟨⟨hc, hn, hcad, ⟨c, hc⟩, .inr hw⟩, hd⟩), takeStart_some (ownStart_due ho)]
    rfl
  case inputLost c r =>
    obtain ⟨rfl, hr, ho, hd⟩ := h
    refine (takeEvent_ready hr _).trans (congrArg _ ?_)
    rw [if_pos ((lossDue_iff s race c).mpr hd), takeStart_some (ownStart_due ho)]
    rfl
  case refEdge time r =>
    obtain ⟨rfl, hr, hx, hl, hs, e, he, hlow, hhigh, hfar, hnear⟩ := h
    refine (takeEvent_ready hr _).trans (congrArg _ ?_)
    have hstarts : s.timing.edgeStarts (max s.timing.clock time - e) = true :=
      (edgeStarts_iff _).mpr ⟨hl, hs, ⟨hlow, hhigh⟩, hfar, hnear⟩
    have hsource : ¬ s.timing.source = .internal := by rw [hx]; decide
    simp only [takeEdge, if_neg hsource, he, hstarts, if_true]
    exact congrArg (fun t => frameStart race { s with timing := t }) (edgeTiming_start hl ⟨hlow, hhigh⟩ ⟨hfar, hnear⟩)

/-- A command that names a frame start where none is taken changes nothing. -/
theorem exec_starts_not {i : Instr} {c : Channel}
    (hi : i ∈ [.outputFrameStart race, .substituteFrameStart race, .eligibleFrameStart race, .forcedRelease race,
      .stall c race, .inputLost c race]) (h : ¬ FrameStartTaken s i race) : exec i s = .next s := by
  cases hr : s.resetHeld with
  | true =>
    simp only [List.mem_cons, List.not_mem_nil, or_false] at hi
    rcases hi with rfl | rfl | rfl | rfl | rfl | rfl <;> exact takeEvent_held hr _
  | false =>
    simp only [List.mem_cons, List.not_mem_nil, or_false] at hi
    rcases hi with rfl | rfl | rfl | rfl | rfl | rfl
    · refine (takeEvent_ready hr _).trans (congrArg _ (takeStart_none (periodElapsed_locked ?_)))
      by_contra hl
      exact h ⟨rfl, hr, hl⟩
    · exact (takeEvent_ready hr _).trans (congrArg _ (takeStart_none (substituteDue_none fun hd => h ⟨rfl, hr, hd⟩)))
    · refine (takeEvent_ready hr _).trans (congrArg _ (ite_eq_right_iff.mpr fun hd => ?_))
      exact takeStart_none (ownStart_none fun ho => h ⟨rfl, hr, ho, hd⟩)
    · refine (takeEvent_ready hr _).trans (congrArg _ (ite_eq_right_iff.mpr fun hd => ?_))
      exact takeStart_none (ownStart_none fun ho => h ⟨rfl, hr, ho, (decision_forced_iff s).mp hd⟩)
    · refine (takeEvent_ready hr _).trans (congrArg _ (ite_eq_right_iff.mpr fun hd => ?_))
      obtain ⟨⟨hc, hu, hcad, _, hw⟩, hlim⟩ := (stalls_iff s c).mp hd
      have hw := hw.resolve_left fun hr => hu (hr c hc)
      exact takeStart_none (ownStart_none fun ho => h ⟨rfl, hr, ho, ⟨hcad, ⟨c, hc, hu⟩, hw⟩, hc, hu, hlim⟩)
    · refine (takeEvent_ready hr _).trans (congrArg _ (ite_eq_right_iff.mpr fun hd => ?_))
      exact takeStart_none (ownStart_none fun ho => h ⟨rfl, hr, ho, (lossDue_iff s race c).mp hd⟩)

/-- The timing after a REF edge under EXTERNAL that is no frame start (R164 to R168). -/
def edgeTiming (time : Nat) (s : State) : Timing :=
  let t := { s.timing with lastEdge := some (max s.timing.clock time), clock := max s.timing.clock time }
  match s.timing.lastEdge with
  | none => t
  | some e => t.edge (intervalAt s time e)

/-- A REF edge under EXTERNAL that is no frame start. -/
theorem exec_refEdge_measured {time : Nat} (hr : s.resetHeld = false) (hx : s.timing.source = .external)
    (h : ¬ FrameStartTaken s (.refEdge time race) race) :
    exec (.refEdge time race) s = .next (notifyTiming s.timing.state { s with timing := edgeTiming time s }) := by
  refine (takeEvent_ready hr _).trans (congrArg _ ?_)
  have hsource : ¬ s.timing.source = .internal := by rw [hx]; decide
  rw [takeEdge, if_neg hsource]
  cases he : s.timing.lastEdge with
  | none =>
    simp only [edgeTiming, he]
    rw [notifyTiming, if_pos rfl]
  | some e =>
    have hstarts : ¬ s.timing.edgeStarts (max s.timing.clock time - e) = true := fun hd => by
      obtain ⟨hl, hs, ⟨hlow, hhigh⟩, hfar, hnear⟩ := (edgeStarts_iff _).mp hd
      exact h ⟨rfl, hr, hx, hl, hs, e, he, hlow, hhigh, hfar, hnear⟩
    simp only [edgeTiming, he, if_neg hstarts, intervalAt]

end Starts

/-! #### Every command -/

/-- The HOLDOVER that a lost reference brings, the last REF edge at `e` (R167). -/
def holdoverTiming (e : Nat) (t : Timing) : Timing :=
  { t with state := .holdover, substituted := false, clock := max t.clock (e + 2 * t.period) }

/-- The ways in which a command leaves the part. -/
inductive Moves (s : State) : Instr → State → Prop
  | stays (i : Instr) : Moves s i s
  | request {i : Instr} {l : Link} {m : Message} {t : State} (hl : requestLink i = some l)
    (hk : takesKind i m.kind) (hw : Waits l m.kind m.payload s) (h : Carried m s i t) : Moves s i t
  | turn {l : Link} {q : Presented} (h : s.ports[l].inProcess = some q) : Moves s .stagingTurn (takeTurn l q s)
  | applying {k : CurrentCommit} (h : PhaseAt s .applying k) : Moves s .applyingCompletes (finishApplying k s)
  | checking {k : CurrentCommit} (h : PhaseAt s .checking k) : Moves s .checkingCompletes (finishChecking k s)
  | normalizing {k : CurrentCommit} (h : PhaseAt s .normalizing k) :
    Moves s .normalizingCompletes (finishNormalizing k s)
  | flooring {k : CurrentCommit} (h : PhaseAt s .flooring k) : Moves s .flooringCompletes (finishFlooring k s)
  | lifting {k : CurrentCommit} (h : PhaseAt s .lifting k) : Moves s .liftingCompletes (finishLifting k s)
  | starts {i : Instr} {race : FrameRace} (h : FrameStartTaken s i race) : Moves s i (frameStart race (startState i s))
  | pixel (c : Channel) : Moves s (.pixelDelivery c) (deliverPixel c s)
  | header (c : Channel) (tag : Word32) : Moves s (.frameHeader c tag) (takeHeader c tag s)
  | line (c : Channel) (ps : List Pixel) : Moves s (.line c ps) (takeLine c ps s)
  | frameEnd (c : Channel) : Moves s (.frameEnd c) (takeFrameEnd c s)
  | edge {time : Nat} {race : FrameRace} (hx : s.timing.source = .external)
    (h : ¬ FrameStartTaken s (.refEdge time race) race) :
    Moves s (.refEdge time race) (notifyTiming s.timing.state { s with timing := edgeTiming time s })
  | holdover {e : Nat} (hl : s.timing.state = .locked) (hs : s.timing.substituted = true)
    (he : s.timing.lastEdge = some e) :
    Moves s .holdoverEntry (notifyTiming .locked
      (bump Counter.lockLosses { s with timing := holdoverTiming e s.timing }))
  | byte (l : Link) (b : Byte) : Moves s (.linkByte l b) (takeByte l b s)
  | gap (l : Link) : Moves s (.gapTimerExpiry l) (takeGap l s)
  | breaks (l : Link) : Moves s (.linkBreak l) (takeBreak l s)
  | breakEnds (l : Link) : Moves s (.linkBreakEnd l) (takeBreakEnd l s)
  | transmits (l : Link) (n : Nat) :
    Moves s (.messageTransmit l n) { s with ports := upd s.ports l (Port.transmit n) }
  | resets {i : Instr} (held : Bool) (hi : i = .hardReset ∨ i = .hardResetEnd) : Moves s i (hardResetState held s)

section Moves

variable {s : State}

theorem moves_completed {i : Instr} {st : CommitState} {act : CurrentCommit → State → State} (hr : s.resetHeld = false)
    (h : ∀ k, PhaseAt s st k → Moves s i (act k s)) : Moves s i (completed st act s) := by
  unfold completed
  split
  · exact .stays i
  · split
    · exact h _ ⟨hr, ‹_›, ‹_›⟩
    · exact .stays i

theorem moves_stagingTurn : Moves s .stagingTurn (stagingTurnStep s) := by
  unfold stagingTurnStep
  split
  · exact .stays _
  · split
    · exact .stays _
    · exact .turn ‹_›

theorem enterHoldover_due {e : Nat} (hl : s.timing.state = .locked) (hs : s.timing.substituted = true)
    (he : s.timing.lastEdge = some e) :
    enterHoldover s = notifyTiming .locked (bump Counter.lockLosses { s with timing := holdoverTiming e s.timing }) := by
  rw [enterHoldover, if_pos ⟨hl, hs⟩]
  split
  · rename_i hn
    rw [he] at hn
    cases hn
  · rename_i e' he'
    rw [he] at he'
    cases he'
    rfl

theorem moves_holdover : Moves s .holdoverEntry (enterHoldover s) := by
  by_cases h : s.timing.state = .locked ∧ s.timing.substituted = true
  · cases he : s.timing.lastEdge with
    | none =>
      rw [enterHoldover, if_pos h]
      split
      · exact .stays _
      · rename_i e' he'
        rw [he] at he'
        cases he'
    | some e =>
      rw [enterHoldover_due h.1 h.2 he]
      exact .holdover h.1 h.2 he
  · rw [enterHoldover, if_neg h]
    exact .stays _

/-- A command that names a frame start takes one or changes nothing. -/
theorem moves_starts {i : Instr} {t : State} {race : FrameRace} {c : Channel}
    (hi : i ∈ [.outputFrameStart race, .substituteFrameStart race, .eligibleFrameStart race, .forcedRelease race,
      .stall c race, .inputLost c race]) (h : exec i s = .next t) : Moves s i t := by
  by_cases hs : FrameStartTaken s i race
  · rw [exec_starts hs] at h
    cases h
    exact .starts hs
  · rw [exec_starts_not hi hs] at h
    cases h
    exact .stays i

theorem moves_edge {time : Nat} {race : FrameRace} {t : State} (hr : s.resetHeld = false)
    (h : exec (.refEdge time race) s = .next t) : Moves s (.refEdge time race) t := by
  by_cases hs : FrameStartTaken s (.refEdge time race) race
  · rw [exec_starts hs] at h
    cases h
    exact .starts hs
  · cases hx : s.timing.source with
    | internal =>
      have hstays : exec (.refEdge time race) s = .next s :=
        (takeEvent_ready hr _).trans (congrArg _ (if_pos hx))
      rw [hstays] at h
      cases h
      exact .stays _
    | external =>
      rw [exec_refEdge_measured hr hx hs] at h
      cases h
      exact .edge hx hs

/-- An event taken while RESET_N is high is one of the ways of `Moves`. -/
theorem moves_event {i : Instr} {t : State} (hl : requestLink i = none) (h₁ : i ≠ .hardReset) (h₂ : i ≠ .hardResetEnd)
    (hr : s.resetHeld = false) (h : exec i s = .next t) : Moves s i t := by
  have ht : t = happen i s := by
    rw [exec_event hl h₁ h₂, takeEvent_ready hr] at h
    exact (Host.Outcome.next.inj h).symm
  cases i
  case outputFrameStart race => exact moves_starts (race := race) (c := 0) (by simp) h
  case substituteFrameStart race => exact moves_starts (race := race) (c := 0) (by simp) h
  case eligibleFrameStart race => exact moves_starts (race := race) (c := 0) (by simp) h
  case forcedRelease race => exact moves_starts (race := race) (c := 0) (by simp) h
  case stall c race => exact moves_starts (race := race) (c := c) (by simp) h
  case inputLost c race => exact moves_starts (race := race) (c := c) (by simp) h
  case refEdge time race => exact moves_edge hr h
  case stagingTurn => exact ht ▸ moves_stagingTurn
  case applyingCompletes => exact ht ▸ moves_completed hr fun _ => .applying
  case checkingCompletes => exact ht ▸ moves_completed hr fun _ => .checking
  case normalizingCompletes => exact ht ▸ moves_completed hr fun _ => .normalizing
  case flooringCompletes => exact ht ▸ moves_completed hr fun _ => .flooring
  case liftingCompletes => exact ht ▸ moves_completed hr fun _ => .lifting
  case pixelDelivery c => exact ht ▸ .pixel c
  case frameHeader c tag => exact ht ▸ .header c tag
  case line c ps => exact ht ▸ .line c ps
  case frameEnd c => exact ht ▸ .frameEnd c
  case holdoverEntry => exact ht ▸ moves_holdover
  case linkByte l b => exact ht ▸ .byte l b
  case gapTimerExpiry l => exact ht ▸ .gap l
  case linkBreak l => exact ht ▸ .breaks l
  case linkBreakEnd l => exact ht ▸ .breakEnds l
  case messageTransmit l n => exact ht ▸ .transmits l n
  case hardReset => exact absurd rfl h₁
  case hardResetEnd => exact absurd rfl h₂
  all_goals cases hl

/-- Every command leaves the part in one of the ways of `Moves`. -/
theorem exec_moves {i : Instr} {t : State} (h : exec i s = .next t) : Moves s i t := by
  cases hl : requestLink i with
  | some l =>
    rw [exec_request hl] at h
    rcases takeRequest_cases h with rfl | ⟨m, hr, hp, ho, hb, hk, rfl⟩
    · exact .stays i
    · have hk := takesKind_of_acceptsKind hl hk
      exact .request hl hk ⟨hr, hp, ho, hb⟩ (carryOut_carried hl hk s)
  | none =>
    by_cases h₁ : i = .hardReset
    · subst h₁
      have ht := (Host.Outcome.next.inj h).symm
      split at ht
      · exact ht ▸ .stays _
      · exact ht ▸ .resets true (.inl rfl)
    by_cases h₂ : i = .hardResetEnd
    · subst h₂
      have ht := (Host.Outcome.next.inj h).symm
      split at ht
      · exact ht ▸ .resets false (.inr rfl)
      · exact ht ▸ .stays _
    cases hr : s.resetHeld with
    | true =>
      rw [exec_event hl h₁ h₂, takeEvent_held hr] at h
      cases h
      exact .stays i
    | false => exact moves_event hl h₁ h₂ hr h

/-- What every move keeps, and the queue of waiting commands does not bear on, every step keeps. -/
theorem step_keeps {P : State → Prop} (hq : ∀ (s : State) (q : List Instr), P s → P { s with pending := q })
    (h : ∀ (s : State) (i : Instr) (t : State), Moves s i t → P s → P t) {s t : State} (hs : step s = .next t)
    (hP : P s) : P t := by
  unfold step at hs
  split at hs
  · cases hs
    exact hP
  · exact h _ _ _ (exec_moves hs) (hq _ _ hP)

end Moves

/-! #### The part as a whole (R187, R201) -/

theorem exec_total (i : Instr) (s : State) : ∃ t, exec i s = .next t := by
  cases hl : requestLink i with
  | some l => exact ⟨_, exec_request hl s⟩
  | none =>
    by_cases h₁ : i = .hardReset
    · exact ⟨_, by rw [h₁]; rfl⟩
    by_cases h₂ : i = .hardResetEnd
    · exact ⟨_, by rw [h₂]; rfl⟩
    exact ⟨_, exec_event hl h₁ h₂ s⟩

end Sys2Proof.Proofs

/-! ### What each command leaves alone

One equation for each meaning: the part with other values in the fields named, and nothing else different. -/
namespace Sys2Proof.Proofs

open Sys2Proof.Machine

section Frames

variable (s : State)

theorem notifyTiming_frame (prev : TimingState) :
    notifyTiming prev s =
      { s with ports := (notifyTiming prev s).ports, counters := (notifyTiming prev s).counters } := by
  unfold notifyTiming
  split
  · rfl
  · rw [hand_eq]

theorem takeTurn_frame (l : Link) (q : Presented) :
    takeTurn l q s = { s with
      staging := (takeTurn l q s).staging, ports := (takeTurn l q s).ports, counters := (takeTurn l q s).counters } := by
  by_cases h : s.staging.occupancy + q.record.edit.units ≤ Config.queueUnits
  · rw [takeTurn_fits l h]
  · rw [takeTurn_full l h]

theorem failCommit_frame (c : CurrentCommit) (f : Failure) :
    failCommit c f s = { s with
      engine := (failCommit c f s).engine, staging := (failCommit c f s).staging
      ports := (failCommit c f s).ports, counters := (failCommit c f s).counters } := by
  unfold failCommit
  rw [handAll_eq]
  rfl

theorem finishChecking_frame (c : CurrentCommit) :
    finishChecking c s = { s with
      tables := (finishChecking c s).tables, engine := (finishChecking c s).engine
      staging := (finishChecking c s).staging, ports := (finishChecking c s).ports
      counters := (finishChecking c s).counters } := by
  unfold finishChecking
  dsimp only
  split
  · rfl
  · rw [failCommit_frame]

theorem finishNormalizing_frame (c : CurrentCommit) :
    finishNormalizing c s = { s with
      tables := (finishNormalizing c s).tables, engine := (finishNormalizing c s).engine
      staging := (finishNormalizing c s).staging, ports := (finishNormalizing c s).ports
      counters := (finishNormalizing c s).counters } := by
  unfold finishNormalizing
  split
  · rw [failCommit_frame]
  · rfl

theorem finishLifting_frame (c : CurrentCommit) :
    finishLifting c s = { s with
      tables := (finishLifting c s).tables, engine := (finishLifting c s).engine
      ports := (finishLifting c s).ports, counters := (finishLifting c s).counters } := by
  unfold finishLifting
  dsimp only
  rw [handAll_eq]
  rfl

theorem deliverPixel_frame (c : Channel) :
    deliverPixel c s = { s with engines := (deliverPixel c s).engines } := by
  unfold deliverPixel
  dsimp only
  split
  · rfl
  · split <;> rfl

theorem takeHeader_frame (c : Channel) (tag : Word32) :
    takeHeader c tag s = { s with
      receivers := upd s.receivers c fun r => r.header tag
      ports := (takeHeader c tag s).ports, counters := (takeHeader c tag s).counters } := by
  unfold takeHeader
  dsimp only
  split
  · rfl
  · rfl
  · rw [handAll_eq]

theorem rejoin_frame (c : Channel) (tag : Word32) :
    rejoin c tag s = { s with
      barrier := (rejoin c tag s).barrier, ports := (rejoin c tag s).ports, counters := (rejoin c tag s).counters } := by
  unfold rejoin
  split
  · rw [handAll_eq]
  · rfl

theorem judgeFrame_frame (c : Channel) (i : Fin 3) :
    judgeFrame c i s = { s with
      receivers := (judgeFrame c i s).receivers, barrier := (judgeFrame c i s).barrier
      ports := (judgeFrame c i s).ports, counters := (judgeFrame c i s).counters } := by
  by_cases h : s.receivers[c].badFrame i (s.tables.active.records[c]).height = true
  · rw [judgeFrame_bad h]
    rfl
  · rw [judgeFrame_good h, rejoin_frame, frameCounted]
    split <;> rfl

theorem takeFrameEnd_frame (c : Channel) :
    takeFrameEnd c s = { s with
      receivers := (takeFrameEnd c s).receivers, barrier := (takeFrameEnd c s).barrier
      ports := (takeFrameEnd c s).ports, counters := (takeFrameEnd c s).counters } := by
  unfold takeFrameEnd
  split
  · split
    · rfl
    · rw [judgeFrame_frame]
  · rfl

theorem rxEffect_frame (l : Link) (e : RxEvent) :
    rxEffect l e s = { s with ports := (rxEffect l e s).ports, counters := (rxEffect l e s).counters } := by
  cases e with
  | complete m =>
    change offerMessage l m s =
      { s with ports := (offerMessage l m s).ports, counters := (offerMessage l m s).counters }
    unfold offerMessage
    split <;> rfl
  | _ => rfl

theorem takeByte_frame (l : Link) (b : Byte) :
    takeByte l b s = { s with ports := (takeByte l b s).ports, counters := (takeByte l b s).counters } := by
  unfold takeByte
  dsimp only
  split
  · rw [rxEffect_frame]
    rfl
  · rfl

theorem takeGap_frame (l : Link) :
    takeGap l s = { s with ports := (takeGap l s).ports, counters := (takeGap l s).counters } := by
  unfold takeGap
  split <;> rfl

theorem takeBreak_frame (l : Link) : takeBreak l s = { s with ports := (takeBreak l s).ports } := by
  unfold takeBreak
  split <;> rfl

theorem restart_frame (o : Handing) :
    restart o s = { restartBlocks s with counters := Vector.replicate 157 0, ports := (restart o s).ports } := by
  unfold restart
  cases o <;> dsimp only
  · rw [handAll_eq]
    rfl
  · rw [handAll_eq]
    rfl

theorem abortAnswered_frame (l : Link) (o : Handing) (c : CurrentCommit) :
    abortAnswered l o c s = { abandonCommit c s with
      ports := (abortAnswered l o c s).ports, counters := (abortAnswered l o c s).counters } := by
  unfold abortAnswered
  cases o <;> dsimp only
  · rw [handAll_eq]
    rfl
  · rw [handAll_eq]
    rfl

theorem timingSet_frame (l : Link) (taking : TimingTaking) (choice : TimingChoice) :
    timingSet l taking choice s = { s with
      timing := timingChosen taking choice s
      ports := (timingSet l taking choice s).ports, counters := (timingSet l taking choice s).counters } := by
  unfold timingSet
  cases taking.order <;> dsimp only
  · rw [notifyTiming_frame]
    rfl
  · rw [notifyTiming_frame]
    rfl

/-- The frame start that SET_TIMING takes at once, one new period after the previous one having passed (R162). -/
theorem takeStart_timingSet {l : Link} {taking : TimingTaking} {choice : TimingChoice}
    (ho : (timingChosen taking choice s).overdue = true) :
    takeStart taking.race periodElapsed (timingSet l taking choice s) =
      frameStart taking.race { timingSet l taking choice s with
        timing := periodTiming (timingChosen taking choice s) } := by
  have ht := timingSet_timing (l := l) (s := s) taking choice
  have hfree : (timingChosen taking choice s).state = .free := (of_decide_eq_true ho).1
  have hl : (timingSet l taking choice s).timing.state ≠ .locked := by rw [ht, hfree]; decide
  rw [takeStart_some (periodElapsed_unlocked hl), ownTiming_unlocked hl, ht]

theorem swapAt_frame (d : Decision) :
    swapAt d s = { s with
      tables := (swapAt d s).tables, staging := (swapAt d s).staging, engine := (swapAt d s).engine
      counters := (swapAt d s).counters } := by
  unfold swapAt
  split <;> rfl

/-- A frame start leaves RESET_N, the mode and the queue of waiting commands alone. -/
theorem frameStart_frame (race : FrameRace) :
    frameStart race s = { frameStart race s with resetHeld := s.resetHeld, mode := s.mode, pending := s.pending } := by
  rw [frameStart_eq]
  unfold beginFrames blocksAfter
  rw [swapAt_frame]

end Frames

section Untouched

variable {s t : State} {i : Instr} {m : Message}

theorem carried_pending (h : Carried m s i t) : t.pending = s.pending := by
  cases h with
  | answers => rfl
  | presents => rfl
  | accepts _ h => cases h <;> rfl
  | aborts => rw [abortAnswered_frame]; rfl
  | timing => rw [timingSet_frame]
  | timingStarts _ _ ho => rw [takeStart_timingSet s ho, frameStart_frame, timingSet_frame]
  | restarts => rw [restart_frame]; rfl

theorem moves_pending (h : Moves s i t) : t.pending = s.pending := by
  cases h with
  | stays => rfl
  | request _ _ _ h => exact carried_pending h
  | turn => rw [takeTurn_frame]
  | applying => rfl
  | checking => rw [finishChecking_frame]
  | normalizing => rw [finishNormalizing_frame]
  | flooring => rfl
  | lifting => rw [finishLifting_frame]
  | starts => rw [frameStart_frame]; rfl
  | pixel => rw [deliverPixel_frame]
  | header => rw [takeHeader_frame]
  | line => rfl
  | frameEnd => rw [takeFrameEnd_frame]
  | edge => rw [notifyTiming_frame]
  | holdover => rw [notifyTiming_frame]; rfl
  | byte => rw [takeByte_frame]
  | gap => rw [takeGap_frame]
  | breaks => rw [takeBreak_frame]
  | breakEnds => rfl
  | transmits => rfl
  | resets => rfl

end Untouched

/-- Settles O1: by the definition of `step`. -/
theorem stepTakesFrontCommand : Obligations.StepTakesFrontCommand := by
  refine ⟨fun c rest s h => ?_, fun s h => ?_⟩
  · rw [step, h]
  · rw [step, h]

/-- Settles O2: every way in which a command leaves the part keeps the queue of waiting commands. -/
theorem everyCommandCompletes : Obligations.EveryCommandCompletes := by
  intro i s
  obtain ⟨t, h⟩ := exec_total i s
  exact ⟨t, h, moves_pending (exec_moves h)⟩

/-- Settles O3: requests and events are taken only while RESET_N is high, and HARD_RESET finds it low already. -/
theorem heldResetTakesNoEvent : Obligations.HeldResetTakesNoEvent := by
  intro i s hr hi
  cases hl : requestLink i with
  | some l => rw [exec_request hl]; exact takeEvent_held hr _
  | none =>
    by_cases h : i = .hardReset
    · rw [h]
      exact congrArg _ (if_pos hr)
    · rw [exec_event hl h hi, takeEvent_held hr]

/-- A queue without a response is one of notices alone. -/
theorem responsesIn_eq_nil_iff (q : List OutMessage) : responsesIn q = [] ↔ q.all OutMessage.isNotice = true := by
  rw [responsesIn, List.filterMap_eq_nil_iff, List.all_eq_true]
  refine forall_congr' fun m => forall_congr' fun _ => ?_
  cases m <;> simp [OutMessage.isNotice, OutMessage.isResponse]

/-- Settles O5: each of the three conditions blocks the port. -/
theorem portTakesNoRequest : Obligations.PortTakesNoRequest := by
  intro i l s hl h
  rw [exec_request hl]
  refine takeRequest_blocked (h.imp_right fun h => ?_)
  rw [← Bool.not_eq_true, canTake_iff, ← responsesIn_eq_nil_iff]
  rintro ⟨hp, ho⟩
  rcases h with h | h
  · rw [hp] at h
    cases h
  · exact h ho

end Sys2Proof.Proofs

/-! ### The counters of an output frame start (R131, R159, R161, R205)

A frame start counts a list of counters, each as often as it stands in it. -/
namespace Sys2Proof.Proofs

open Sys2Proof.Machine

theorem getElem_bumpAll (n : CounterIx) (is : List CounterIx) :
    ∀ s : State, (bumpAll is s).counters[n] = s.counters[n] + BitVec.ofNat 32 (is.count n) := by
  induction is with
  | nil => intro s; simp [bumpAll]
  | cons i is ih =>
    intro s
    rw [bumpAll, ih, List.count_cons]
    simp only [Fin.getElem_fin, getElem_bump]
    by_cases h : i = n
    · subst h
      simp [BitVec.ofNat_add]
      ac_rfl
    · simp [Fin.val_ne_of_ne h, h]

theorem swapAt_counters (d : Decision) (s : State) (n : CounterIx) (hn : n ≠ Counter.commitsDone) :
    (swapAt d s).counters[n] = s.counters[n] := by
  unfold swapAt takeSwap
  split
  · rfl
  · simp only [Fin.getElem_fin, getElem_bump]
    rw [if_neg fun h => hn (Fin.ext h.symm)]

/-- A counter of a frame start that is no count of lost notices. -/
theorem frameStart_counter (race : FrameRace) (s : State) (n : CounterIx) (hn : ∀ l : Link, n ≠ Counter.ofLink l 3) :
    (frameStart race s).counters[n] = (swapAt (decision s) s).counters[n] +
      BitVec.ofNat 32 ((frameCounts (decision s) (receiverTurns race (decision s) s) s).count n) := by
  unfold frameStart
  dsimp only
  rw [handAll_counters _ n hn, beginFrames_counters, getElem_bumpAll]
  rfl

/-! #### The places of the counters -/

theorem ofChannel_inj {c c' : Channel} {k k' : Fin 8} :
    Counter.ofChannel c k = Counter.ofChannel c' k' ↔ c = c' ∧ k = k' := by
  simp only [Counter.ofChannel, Fin.ext_iff]
  omega

theorem global_ne_ofLink {n : CounterIx} (h : n.val < 9) (l : Link) (k : Fin 4) : n ≠ Counter.ofLink l k := by
  simp only [Counter.ofLink, ne_eq, Fin.ext_iff]
  omega

theorem ofChannel_ne_ofLink (c : Channel) (k : Fin 8) (l : Link) (k' : Fin 4) :
    Counter.ofChannel c k ≠ Counter.ofLink l k' := by
  simp only [Counter.ofChannel, Counter.ofLink, ne_eq, Fin.ext_iff]
  omega

theorem ofChannel_ne_global (c : Channel) (k : Fin 8) {n : CounterIx} (h : n.val < 9) : Counter.ofChannel c k ≠ n := by
  simp only [Counter.ofChannel, ne_eq, Fin.ext_iff]
  omega

theorem nine_le_ofChannel (c : Channel) (k : Fin 8) : 9 ≤ (Counter.ofChannel c k).val := by
  simp only [Counter.ofChannel]
  omega

theorem ofLink_inj {l l' : Link} {k k' : Fin 4} : Counter.ofLink l k = Counter.ofLink l' k' ↔ l = l' ∧ k = k' := by
  simp only [Counter.ofLink, Fin.ext_iff]
  omega

/-! #### What is counted -/

/-- What one channel counts at a frame start. -/
def channelCounts (d : Decision) (turns : Vector Turning 12) (s : State) (c : Channel) : List CounterIx :=
  (if isLate d s c then [Counter.ofChannel c 4] else []) ++ (if stalls d s c then [Counter.ofChannel c 5] else []) ++
    turns[c].counts c

theorem mem_channelCounts {d : Decision} {turns : Vector Turning 12} {s : State} {c : Channel} {n : CounterIx}
    (h : n ∈ channelCounts d turns s c) : ∃ k : Fin 8, k ≠ 0 ∧ k ≠ 2 ∧ k ≠ 7 ∧ n = Counter.ofChannel c k := by
  simp only [channelCounts, Turning.counts, List.mem_append] at h
  rcases h with (h | h) | ((h | h) | h) <;> split at h <;> simp only [List.mem_singleton, List.not_mem_nil] at h
  · exact ⟨4, by decide, by decide, by decide, h⟩
  · exact ⟨5, by decide, by decide, by decide, h⟩
  · exact ⟨1, by decide, by decide, by decide, h⟩
  · exact ⟨3, by decide, by decide, by decide, h⟩
  · exact ⟨6, by decide, by decide, by decide, h⟩

/-- Of a run over all channels, the count that one channel alone adds to. -/
theorem count_flatMap_channels {α : Type} [BEq α] [LawfulBEq α] (f : Channel → List α) (c : Channel) (a : α)
    (h : ∀ c', c' ≠ c → a ∉ f c') : (channels.flatMap f).count a = (f c).count a := by
  have key : ∀ cs : List Channel, cs.Nodup →
      (cs.flatMap f).count a = if c ∈ cs then (f c).count a else 0 := by
    intro cs
    induction cs with
    | nil => simp
    | cons c' cs ih =>
      intro hn
      obtain ⟨hc, hn⟩ := List.nodup_cons.mp hn
      rw [List.flatMap_cons, List.count_append, ih hn]
      by_cases e : c' = c
      · subst e
        simp [hc]
      · rw [List.count_eq_zero.mpr (h c' e)]
        simp [Ne.symm e]
  rw [key channels (by decide), if_pos (mem_channels c)]

section Counts

variable (d : Decision) (turns : Vector Turning 12) (s : State)

theorem frameCounts_eq : frameCounts d turns s =
    [Counter.frameStarts] ++ (if d.isRelease then [Counter.releases] else []) ++
      (if d = .forced then [Counter.forcedReleases] else []) ++ channels.flatMap (channelCounts d turns s) ++
      (skewed (promotedTags d turns s)).map (fun p => Counter.ofChannel p.1 7) ++
      (if (skewed (promotedTags d turns s)).isEmpty then [] else [Counter.skewReleases]) := rfl

theorem skewReleases_optional :
    (if (skewed (promotedTags d turns s)).isEmpty then [] else [Counter.skewReleases]) =
      if (skewed (promotedTags d turns s)).isEmpty = false then [Counter.skewReleases] else [] := by
  cases (skewed (promotedTags d turns s)).isEmpty <;> rfl

variable {d turns s}

/-- A global counter that is neither of the four of a frame start. -/
theorem count_global {n : CounterIx} (h : n.val < 9) :
    (frameCounts d turns s).count n =
      (if n = Counter.frameStarts then 1 else 0) + (if n = Counter.releases ∧ d.isRelease = true then 1 else 0) +
        (if n = Counter.forcedReleases ∧ d = .forced then 1 else 0) +
        (if n = Counter.skewReleases ∧ (skewed (promotedTags d turns s)).isEmpty = false then 1 else 0) := by
  have hchannels : (channels.flatMap (channelCounts d turns s)).count n = 0 := by
    rw [List.count_eq_zero, List.mem_flatMap]
    rintro ⟨c, -, hc⟩
    obtain ⟨k, -, -, -, rfl⟩ := mem_channelCounts hc
    exact ofChannel_ne_global c k h rfl
  have hskews : ((skewed (promotedTags d turns s)).map fun p => Counter.ofChannel p.1 7).count n = 0 := by
    rw [List.count_eq_zero, List.mem_map]
    rintro ⟨p, -, rfl⟩
    exact ofChannel_ne_global _ _ h rfl
  have hone (i : CounterIx) (P : Prop) [Decidable P] :
      (if P then [i] else []).count n = if n = i ∧ P then 1 else 0 := by
    by_cases hP : P <;> by_cases hi : n = i
    · subst hi; simp [hP]
    · simp [hP, hi, Ne.symm hi]
    · simp [hP]
    · simp [hP]
  have hrelease := hone Counter.releases (d.isRelease = true)
  have hforced := hone Counter.forcedReleases (d = .forced)
  have hskew := hone Counter.skewReleases ((skewed (promotedTags d turns s)).isEmpty = false)
  have hstart := hone Counter.frameStarts True
  simp only [if_true, and_true] at hstart
  rw [frameCounts_eq, skewReleases_optional]
  simp only [List.count_append, hchannels, hskews, hrelease, hforced, hskew, hstart, Nat.add_zero]

/-- A counter of a channel or of a link. -/
theorem count_local {n : CounterIx} (h : 9 ≤ n.val) :
    (frameCounts d turns s).count n = (channels.flatMap (channelCounts d turns s)).count n +
      ((skewed (promotedTags d turns s)).map fun p => Counter.ofChannel p.1 7).count n := by
  have hglobal (P : Prop) [Decidable P] {i : CounterIx} (hi : i.val < 9) : (if P then [i] else []).count n = 0 := by
    rw [List.count_eq_zero]
    split
    · rw [List.mem_singleton]
      rintro rfl
      omega
    · exact List.not_mem_nil
  have hstart := hglobal True (i := Counter.frameStarts) (by decide)
  rw [if_pos trivial] at hstart
  rw [frameCounts_eq, skewReleases_optional]
  simp only [List.count_append, hstart, hglobal _ (i := Counter.releases) (by decide),
    hglobal _ (i := Counter.forcedReleases) (by decide), hglobal _ (i := Counter.skewReleases) (by decide), Nat.zero_add,
    Nat.add_zero]

/-- A counter of a channel that is not its skews. -/
theorem count_ofChannel {c : Channel} {k : Fin 8} (hk : k ≠ 7) :
    (frameCounts d turns s).count (Counter.ofChannel c k) =
      (channelCounts d turns s c).count (Counter.ofChannel c k) := by
  have hskews : ((skewed (promotedTags d turns s)).map fun p => Counter.ofChannel p.1 7).count
      (Counter.ofChannel c k) = 0 := by
    rw [List.count_eq_zero, List.mem_map]
    rintro ⟨p, -, hp⟩
    exact hk (ofChannel_inj.mp hp).2.symm
  have hother (c' : Channel) (h : c' ≠ c) : Counter.ofChannel c k ∉ channelCounts d turns s c' := by
    intro hmem
    obtain ⟨k', -, -, -, he⟩ := mem_channelCounts hmem
    exact h (ofChannel_inj.mp he).1.symm
  rw [count_local (nine_le_ofChannel c k), hskews, count_flatMap_channels _ c _ hother, Nat.add_zero]

/-- The skews of a channel. -/
theorem count_skews (c : Channel) :
    (frameCounts d turns s).count (Counter.ofChannel c 7) =
      ((skewed (promotedTags d turns s)).map Prod.fst).count c := by
  have hchannels : (channels.flatMap (channelCounts d turns s)).count (Counter.ofChannel c 7) = 0 := by
    rw [List.count_eq_zero, List.mem_flatMap]
    rintro ⟨c', -, hc⟩
    obtain ⟨k, -, -, hk, he⟩ := mem_channelCounts hc
    exact hk (ofChannel_inj.mp he).2.symm
  have hmap : (skewed (promotedTags d turns s)).map (fun p => Counter.ofChannel p.1 7) =
      ((skewed (promotedTags d turns s)).map Prod.fst).map fun c' => Counter.ofChannel c' 7 := by
    rw [List.map_map]
    rfl
  rw [count_local (nine_le_ofChannel c 7), hchannels, Nat.zero_add, hmap]
  exact List.count_map_of_injective _ _ (fun a b h => (ofChannel_inj.mp h).1) c

/-- No frame start counts for a link, but where a notice is lost. -/
theorem count_ofLink (l : Link) (k : Fin 4) : (frameCounts d turns s).count (Counter.ofLink l k) = 0 := by
  have hl : 9 ≤ (Counter.ofLink l k).val := by simp only [Counter.ofLink]; omega
  rw [count_local hl, Nat.add_eq_zero_iff, List.count_eq_zero, List.count_eq_zero]
  constructor
  · rw [List.mem_flatMap]
    rintro ⟨c, -, hc⟩
    obtain ⟨k', -, -, -, he⟩ := mem_channelCounts hc
    exact ofChannel_ne_ofLink c k' l k he.symm
  · rw [List.mem_map]
    rintro ⟨p, -, hp⟩
    exact ofChannel_ne_ofLink _ _ l k hp

end Counts

end Sys2Proof.Proofs

/-! ### The releases counter and the sky frame number (R141, R205, R206)

They rise together at a release and return to 0 together at RESTART and hard reset; no other command counts a release. -/
namespace Sys2Proof.Proofs

open Sys2Proof.Machine

section Releases

variable {s t : State}

theorem bump_counter_other {i n : CounterIx} (h : i ≠ n) (s : State) : (bump i s).counters[n] = s.counters[n] := by
  simp only [Fin.getElem_fin, getElem_bump]
  exact if_neg fun e => h (Fin.ext e)

theorem bump_releases {i : CounterIx} (h : 0 < i.val) (s : State) :
    (bump i s).counters[Counter.releases] = s.counters[Counter.releases] :=
  bump_counter_other (fun e => by rw [e] at h; exact absurd h (by decide)) s

theorem handAll_releases (ns : List (Link × NoticeBody)) (s : State) :
    (handAll ns s).counters[Counter.releases] = s.counters[Counter.releases] :=
  handAll_counters ns _ (fun l => global_ne_ofLink (by decide) l 3) s

theorem ofChannel_pos (c : Channel) (k : Fin 8) : 0 < (Counter.ofChannel c k).val :=
  Nat.lt_of_lt_of_le (by decide) (nine_le_ofChannel c k)

theorem ofLink_pos (l : Link) (k : Fin 4) : 0 < (Counter.ofLink l k).val := by
  simp only [Counter.ofLink]
  omega

theorem notifyTiming_releases (prev : TimingState) (s : State) :
    (notifyTiming prev s).counters[Counter.releases] = s.counters[Counter.releases] := by
  unfold notifyTiming
  split
  · rfl
  · exact handAll_releases [(SL, _)] s

theorem takeTurn_releases (l : Link) (q : Presented) (s : State) :
    (takeTurn l q s).counters[Counter.releases] = s.counters[Counter.releases] := by
  unfold takeTurn
  dsimp only
  split
  · rfl
  · exact bump_releases (by decide) _

theorem failCommit_releases (c : CurrentCommit) (f : Failure) (s : State) :
    (failCommit c f s).counters[Counter.releases] = s.counters[Counter.releases] := by
  rw [failCommit, handAll_releases]
  exact bump_releases (by decide) _

theorem takeHeader_releases (c : Channel) (tag : Word32) (s : State) :
    (takeHeader c tag s).counters[Counter.releases] = s.counters[Counter.releases] := by
  unfold takeHeader
  dsimp only
  split
  · exact bump_releases (ofChannel_pos c 1) _
  · rfl
  · exact handAll_releases _ _

theorem rejoin_releases (c : Channel) (tag : Word32) (s : State) :
    (rejoin c tag s).counters[Counter.releases] = s.counters[Counter.releases] := by
  unfold rejoin
  split
  · exact handAll_releases _ _
  · rfl

theorem rejoin_skyFrame (c : Channel) (tag : Word32) (s : State) :
    (rejoin c tag s).barrier.skyFrame = s.barrier.skyFrame := by
  unfold rejoin
  split
  · rw [handAll_barrier]
  · rfl

theorem frameCounted_releases (c : Channel) (s t : State) :
    (frameCounted c s t).counters[Counter.releases] = t.counters[Counter.releases] := by
  unfold frameCounted
  split
  · exact (bump_releases (ofChannel_pos c 3) _).trans (bump_releases (ofChannel_pos c 0) _)
  · exact bump_releases (ofChannel_pos c 0) _

theorem takeFrameEnd_released (c : Channel) (s : State) :
    (takeFrameEnd c s).counters[Counter.releases] = s.counters[Counter.releases] ∧
      (takeFrameEnd c s).barrier.skyFrame = s.barrier.skyFrame := by
  unfold takeFrameEnd
  split
  · split
    · exact ⟨rfl, rfl⟩
    · rename_i i _
      by_cases h : s.receivers[c].badFrame i (s.tables.active.records[c]).height = true
      · rw [judgeFrame_bad h]
        exact ⟨bump_releases (ofChannel_pos c 2) _, rfl⟩
      · rw [judgeFrame_good h, rejoin_releases, rejoin_skyFrame, frameCounted_releases, frameCounted_barrier]
        exact ⟨rfl, rfl⟩
  · exact ⟨rfl, rfl⟩

theorem takeByte_releases (l : Link) (b : Byte) (s : State) :
    (takeByte l b s).counters[Counter.releases] = s.counters[Counter.releases] := by
  unfold takeByte
  dsimp only
  split
  · cases (s.ports[l].rx.byte b).2 with
    | quiet => rfl
    | framing => exact bump_releases (ofLink_pos l 1) _
    | mismatch => exact bump_releases (ofLink_pos l 0) _
    | complete m =>
      unfold rxEffect offerMessage
      dsimp only
      split
      · rfl
      · exact bump_releases (ofLink_pos l 2) _
  · rfl

/-- A release counts and numbers; no other frame start does either (R141). -/
theorem frameStart_released (race : FrameRace) (h : ReleasesCounted s) : ReleasesCounted (frameStart race s) := by
  have hcount := frameStart_counter race s Counter.releases fun l => global_ne_ofLink (by decide) l 3
  rw [swapAt_counters _ _ _ (by decide), count_global (by decide)] at hcount
  rw [ReleasesCounted, hcount, h, frameStart_barrier]
  simp only [barrierAfter, turnNumber]
  cases (decision s).isRelease <;> simp [show Counter.releases ≠ Counter.frameStarts by decide,
    show Counter.releases ≠ Counter.forcedReleases by decide, show Counter.releases ≠ Counter.skewReleases by decide]

theorem edited_released {p : List Byte} {i : Instr} (h : Edited p s i t) (hs : ReleasesCounted s) : ReleasesCounted t := by
  cases h <;> exact hs

theorem carried_released {m : Message} {i : Instr} (h : Carried m s i t) (hs : ReleasesCounted s) : ReleasesCounted t := by
  have hset (l : Link) (taking : TimingTaking) (choice : TimingChoice) :
      ReleasesCounted (timingSet l taking choice s) := by
    unfold timingSet
    cases taking.order <;> dsimp only
    · rw [ReleasesCounted, notifyTiming_releases, notifyTiming_frame]
      exact hs
    · rw [ReleasesCounted, answered_counters, answered_barrier, notifyTiming_releases, notifyTiming_frame]
      exact hs
  cases h with
  | answers => exact hs
  | presents => exact hs
  | accepts _ h =>
    have hedited := edited_released h hs
    exact hedited
  | @aborts l o c =>
    have habandon : ReleasesCounted (abandonCommit c s) := (bump_releases (by decide) _).trans hs
    cases o
    · rw [ReleasesCounted, abortAnswered, handAll_releases, handAll_barrier]
      exact habandon
    · rw [ReleasesCounted, abortAnswered, answered_counters, answered_barrier, handAll_releases, handAll_barrier]
      exact habandon
  | timing => exact hset _ _ _
  | timingStarts _ _ ho =>
    rw [takeStart_timingSet s ho]
    exact frameStart_released _ (hset _ _ _)
  | restarts =>
    rw [restart_frame]
    rfl

theorem moves_released (s : State) (i : Instr) (t : State) (h : Moves s i t) (hs : ReleasesCounted s) :
    ReleasesCounted t := by
  cases h with
  | stays => exact hs
  | request _ _ _ h => exact carried_released h hs
  | turn =>
    rw [ReleasesCounted, takeTurn_releases, takeTurn_frame]
    exact hs
  | applying => exact hs
  | @checking k =>
    have hcount : (finishChecking k s).counters[Counter.releases] = s.counters[Counter.releases] := by
      unfold finishChecking
      dsimp only
      split
      · rfl
      · exact failCommit_releases _ _ _
    rw [ReleasesCounted, hcount, finishChecking_frame]
    exact hs
  | @normalizing k =>
    have hcount : (finishNormalizing k s).counters[Counter.releases] = s.counters[Counter.releases] := by
      unfold finishNormalizing
      split
      · exact failCommit_releases _ _ _
      · rfl
    rw [ReleasesCounted, hcount, finishNormalizing_frame]
    exact hs
  | flooring => exact hs
  | lifting =>
    rw [ReleasesCounted, finishLifting, handAll_releases, handAll_barrier]
    exact hs
  | starts => exact frameStart_released _ hs
  | pixel => rw [deliverPixel_frame]; exact hs
  | header =>
    rw [ReleasesCounted, takeHeader_releases, takeHeader_frame]
    exact hs
  | line => exact hs
  | frameEnd c =>
    rw [ReleasesCounted, (takeFrameEnd_released c s).1, (takeFrameEnd_released c s).2]
    exact hs
  | edge =>
    rw [ReleasesCounted, notifyTiming_releases, notifyTiming_frame]
    exact hs
  | holdover =>
    rw [ReleasesCounted, notifyTiming_releases, notifyTiming_frame]
    exact (bump_releases (by decide) _).trans hs
  | byte =>
    rw [ReleasesCounted, takeByte_releases, takeByte_frame]
    exact hs
  | gap l =>
    unfold takeGap
    split
    · exact hs
    · exact (bump_releases (ofLink_pos l 1) _).trans hs
  | breaks => rw [takeBreak_frame]; exact hs
  | breakEnds => exact hs
  | transmits => exact hs
  | resets => rfl

end Releases

/-- Settles O59: a release counts and numbers, and the two resets clear both. -/
theorem releasesStayCounted : Obligations.ReleasesStayCounted :=
  fun _ _ h hstep => step_keeps (fun _ _ h => h) moves_released hstep h

end Sys2Proof.Proofs

/-! ### The committed sky (R1, R3, R54, R56, R103)

The phases of a commit write SHADOW alone. ACTIVE changes where a frame start swaps the banks, and a frame context where a
frame start fixes it or RESTART switches its content off. -/
namespace Sys2Proof.Proofs

open Sys2Proof.Machine

section Banks

variable (t : TableStore) (b : Bank)

@[simp] theorem active_setShadow : (t.setShadow b).active = t.active := by
  obtain ⟨bankA, bankB, activeIsB⟩ := t
  cases activeIsB <;> rfl

@[simp] theorem shadow_setShadow : (t.setShadow b).shadow = b := by
  obtain ⟨bankA, bankB, activeIsB⟩ := t
  cases activeIsB <;> rfl

@[simp] theorem activeIsB_setShadow : (t.setShadow b).activeIsB = t.activeIsB := by
  obtain ⟨bankA, bankB, activeIsB⟩ := t
  cases activeIsB <;> rfl

@[simp] theorem active_swap : t.swap.active = t.shadow := by
  obtain ⟨bankA, bankB, activeIsB⟩ := t
  cases activeIsB <;> rfl

@[simp] theorem shadow_swap : t.swap.shadow = t.active := by
  obtain ⟨bankA, bankB, activeIsB⟩ := t
  cases activeIsB <;> rfl

theorem setShadow_shadow : t.setShadow t.shadow = t := by
  obtain ⟨bankA, bankB, activeIsB⟩ := t
  cases activeIsB <;> rfl

end Banks

section Checked

/-- What a SET_TIMING that passes its checks says. -/
theorem checkSetTiming_ok {l : Link} {p : List Byte} {choice : TimingChoice} (h : checkSetTiming l p = .ok choice) :
    p.length = 2 ∧ l = SL ∧ ((choice = .external ∧ u8 p 0 = 1) ∨
      (choice = .internal (u8 p 1) ∧ u8 p 0 = 0 ∧ 24 ≤ u8 p 1 ∧ u8 p 1 ≤ 144)) := by
  unfold checkSetTiming at h
  split at h
  · cases h
  rename_i hp
  split at h
  · cases h
  rename_i hl
  refine ⟨not_not.mp hp, not_not.mp hl, ?_⟩
  split at h
  · cases h
    exact .inl ⟨rfl, ‹_›⟩
  split at h
  · cases h
  rename_i h0
  split at h
  · cases h
  rename_i hrate
  cases h
  exact .inr ⟨rfl, not_not.mp h0, by omega, by omega⟩

variable {s : State} {l : Link} {m : Message} {taking : TimingTaking} {choice : TimingChoice}

/-- Only INTERNAL finds its frame start overdue (R162). -/
theorem startAtOnce_of_overdue (hk : m.kind = 0x53#8) (hl : l = SL) (hw : Waits l m.kind m.payload s)
    (h : checkSetTiming l m.payload = .ok choice) (ho : (timingChosen taking choice s).overdue = true) :
    StartAtOnce taking.time s := by
  subst hl
  rw [hk] at hw
  obtain ⟨hp, -, ⟨rfl, -⟩ | ⟨rfl, h0, hlow, hhigh⟩⟩ := checkSetTiming_ok h
  · exact absurd (of_decide_eq_true ho).1 (by simp [timingChosen, Timing.choose])
  · exact ⟨m.payload, hw, hp, h0, hlow, hhigh, (of_decide_eq_true ho).2⟩

end Checked

/-- ACTIVE and its designation as they were. -/
def SameActive (t u : TableStore) : Prop := u.active = t.active ∧ u.activeIsB = t.activeIsB

theorem sameActive_setShadow (t : TableStore) (b : Bank) : SameActive t (t.setShadow b) :=
  ⟨active_setShadow t b, activeIsB_setShadow t b⟩

/-- A frame start that a command takes, be it the one that SET_TIMING takes at once. -/
def StartsFrame (s : State) (i : Instr) : Prop :=
  (∃ race, FrameStartTaken s i race) ∨ ∃ taking, i = .setTiming 12 taking ∧ StartAtOnce taking.time s

section Sky

variable {s t : State} {i : Instr}

theorem frameStart_active (race : FrameRace) (s : State) :
    SameActive s.tables (frameStart race s).tables ∨ ∃ k, SwapDue s k := by
  rw [frameStart_tables, swapAt_tables]
  cases h : swapTaken (decision s) s with
  | none => exact .inl ⟨rfl, rfl⟩
  | some k => exact .inr ⟨k, (swapTaken_eq_some_iff s k).mp h⟩

theorem finishChecking_sameActive (k : CurrentCommit) (s : State) :
    SameActive s.tables (finishChecking k s).tables := by
  unfold finishChecking
  dsimp only
  split
  · exact sameActive_setShadow _ _
  · rw [failCommit_frame]
    exact sameActive_setShadow _ _

theorem finishNormalizing_sameActive (k : CurrentCommit) (s : State) :
    SameActive s.tables (finishNormalizing k s).tables := by
  unfold finishNormalizing
  split
  · rw [failCommit_frame]
    exact ⟨rfl, rfl⟩
  · exact sameActive_setShadow _ _

theorem finishLifting_sameActive (k : CurrentCommit) (s : State) : SameActive s.tables (finishLifting k s).tables := by
  rw [finishLifting, handAll_tables]
  exact sameActive_setShadow _ _

theorem edited_sameActive {p : List Byte} (h : Edited p s i t) : SameActive s.tables t.tables := by
  cases h with
  | commits => exact sameActive_setShadow _ _
  | _ => exact ⟨rfl, rfl⟩

theorem carried_active {m : Message} {l : Link} (hl : requestLink i = some l) (hk : takesKind i m.kind)
    (hw : Waits l m.kind m.payload s) (h : Carried m s i t) :
    SameActive s.tables t.tables ∨ (∃ k, SwapDue s k) ∧ StartsFrame s i := by
  cases h with
  | answers => exact .inl ⟨rfl, rfl⟩
  | presents => exact .inl ⟨rfl, rfl⟩
  | accepts _ h =>
    have hedited := edited_sameActive h
    exact .inl hedited
  | aborts =>
    rw [abortAnswered_frame]
    exact .inl ⟨rfl, rfl⟩
  | timing =>
    rw [timingSet_frame]
    exact .inl ⟨rfl, rfl⟩
  | @timingStarts l' taking choice hsl hc ho =>
    cases hl
    have honce := startAtOnce_of_overdue (kind_of_takesKind hk rfl) hsl hw hc ho
    rw [takeStart_timingSet s ho, timingSet_frame]
    refine (frameStart_active _ _).imp id fun hd => ⟨hd, .inr ⟨taking, by rw [hsl], honce⟩⟩
  | restarts =>
    rw [restart_frame]
    exact .inl ⟨rfl, rfl⟩

theorem moves_active (h : Moves s i t) (h₁ : i ≠ .hardReset) (h₂ : i ≠ .hardResetEnd) :
    SameActive s.tables t.tables ∨ (∃ k, SwapDue s k) ∧ StartsFrame s i := by
  cases h with
  | request hl hk hw h => exact carried_active hl hk hw h
  | starts h =>
    exact (frameStart_active _ (startState i s)).imp id fun hd => ⟨hd, .inl ⟨_, h⟩⟩
  | resets _ hi => exact (hi.elim h₁ h₂).elim
  | stays => exact .inl ⟨rfl, rfl⟩
  | turn => rw [takeTurn_frame]; exact .inl ⟨rfl, rfl⟩
  | applying => exact .inl (sameActive_setShadow _ _)
  | checking => exact .inl (finishChecking_sameActive _ s)
  | normalizing => exact .inl (finishNormalizing_sameActive _ s)
  | flooring => exact .inl (sameActive_setShadow _ _)
  | lifting => exact .inl (finishLifting_sameActive _ s)
  | pixel => rw [deliverPixel_frame]; exact .inl ⟨rfl, rfl⟩
  | header => rw [takeHeader_frame]; exact .inl ⟨rfl, rfl⟩
  | line => exact .inl ⟨rfl, rfl⟩
  | frameEnd => rw [takeFrameEnd_frame]; exact .inl ⟨rfl, rfl⟩
  | edge => rw [notifyTiming_frame]; exact .inl ⟨rfl, rfl⟩
  | holdover => rw [notifyTiming_frame]; exact .inl ⟨rfl, rfl⟩
  | byte => rw [takeByte_frame]; exact .inl ⟨rfl, rfl⟩
  | gap => rw [takeGap_frame]; exact .inl ⟨rfl, rfl⟩
  | breaks => rw [takeBreak_frame]; exact .inl ⟨rfl, rfl⟩
  | breakEnds => exact .inl ⟨rfl, rfl⟩
  | transmits => exact .inl ⟨rfl, rfl⟩

/-! #### The frame contexts -/

/-- A pixel delivered leaves every frame context as it is. -/
theorem deliverPixel_context (c c' : Channel) (s : State) :
    (deliverPixel c s).engines[c'].context = s.engines[c'].context := by
  unfold deliverPixel
  dsimp only
  split
  · by_cases h : c = c'
    · subst h; simp
    · simp [Fin.val_ne_of_ne h]
  · split
    · by_cases h : c = c'
      · subst h
        simp only [Fin.getElem_fin, getElem_put, if_true, PixelEngine.advance]
        split <;> rfl
      · simp [Fin.val_ne_of_ne h]
    · rfl

theorem restart_context (o : Handing) (s : State) (c : Channel) :
    (restart o s).engines[c].context = s.engines[c].context.map fun x => { x with contentOff := true } := by
  rw [restart_frame]
  simp [restartBlocks]

/-- What a command may do to the frame context of a channel. -/
def ContextKept (s : State) (i : Instr) (t : State) (c : Channel) : Prop :=
  t.engines[c].context = s.engines[c].context ∨ StartsFrame s i ∨
    (∃ o, i = .restart 12 o) ∧
      t.engines[c].context = s.engines[c].context.map fun x => { x with contentOff := true }

theorem carried_context {m : Message} {l : Link} (hl : requestLink i = some l) (hk : takesKind i m.kind)
    (hw : Waits l m.kind m.payload s) (h : Carried m s i t) (c : Channel) : ContextKept s i t c := by
  cases h with
  | answers => exact .inl rfl
  | presents => exact .inl rfl
  | accepts _ h => cases h <;> exact .inl rfl
  | aborts => rw [abortAnswered_frame]; exact .inl rfl
  | timing => rw [timingSet_frame]; exact .inl rfl
  | @timingStarts l' taking choice hsl hc ho =>
    cases hl
    have honce := startAtOnce_of_overdue (kind_of_takesKind hk rfl) hsl hw hc ho
    exact .inr (.inl (.inr ⟨taking, by rw [hsl], honce⟩))
  | restarts => exact .inr (.inr ⟨⟨_, rfl⟩, restart_context _ _ c⟩)

theorem moves_context (h : Moves s i t) (h₁ : i ≠ .hardReset) (h₂ : i ≠ .hardResetEnd) (c : Channel) :
    ContextKept s i t c := by
  cases h with
  | request hl hk hw h => exact carried_context hl hk hw h c
  | starts h => exact .inr (.inl (.inl ⟨_, h⟩))
  | resets _ hi => exact (hi.elim h₁ h₂).elim
  | pixel c' => exact .inl (deliverPixel_context c' c s)
  | stays => exact .inl rfl
  | turn => rw [takeTurn_frame]; exact .inl rfl
  | applying => exact .inl rfl
  | checking => rw [finishChecking_frame]; exact .inl rfl
  | normalizing => rw [finishNormalizing_frame]; exact .inl rfl
  | flooring => exact .inl rfl
  | lifting => rw [finishLifting_frame]; exact .inl rfl
  | header => rw [takeHeader_frame]; exact .inl rfl
  | line => exact .inl rfl
  | frameEnd => rw [takeFrameEnd_frame]; exact .inl rfl
  | edge => rw [notifyTiming_frame]; exact .inl rfl
  | holdover => rw [notifyTiming_frame]; exact .inl rfl
  | byte => rw [takeByte_frame]; exact .inl rfl
  | gap => rw [takeGap_frame]; exact .inl rfl
  | breaks => rw [takeBreak_frame]; exact .inl rfl
  | breakEnds => exact .inl rfl
  | transmits => exact .inl rfl

end Sky

/-- Settles O60: by cases on what the command does, for the tables and for each frame context. -/
theorem committedSkyChangesOnlyAtASwap : Obligations.CommittedSkyChangesOnlyAtASwap := by
  intro i s t h h₁ h₂
  refine ⟨moves_active (exec_moves h) h₁ h₂, fun c => ?_⟩
  rcases moves_context (exec_moves h) h₁ h₂ c with hsame | (hstart | honce) | hrestart
  · exact .inl hsame
  · exact .inr (.inl hstart)
  · exact .inr (.inr (.inl honce))
  · exact .inr (.inr (.inr hrestart))

end Sys2Proof.Proofs

/-! ### What a command does to a port, said once

A port is handed notices, answers or presents its oldest request, ends a request in process, takes a byte, breaks, opens,
transmits or is reset. What all of these keep, every command keeps at every port. -/
namespace Sys2Proof.Proofs

open Sys2Proof.Machine

/-- The port once its oldest request is answered. -/
def Port.answers (p : Port) (r : Response) : Port :=
  { p with buffer := p.buffer.tail, outbound := p.outbound ++ [.response r] }

/-- The port once its oldest request is in process. -/
def Port.presents (p : Port) (q : Presented) : Port := { p with buffer := p.buffer.tail, inProcess := some q }

/-- The port once its request in process is answered. -/
def Port.ends (p : Port) (r : Response) : Port :=
  { p with inProcess := none, outbound := p.outbound ++ [.response r] }

/-- What every change of a port keeps, from a part in state `s`. -/
structure PortLaw (s : State) (P : Link → Port → Prop) : Prop where
  hand : ∀ l p ch b, P l p → P l (p.hand ch b).1
  answers : ∀ l p r, p.inProcess = none → responsesIn p.outbound = [] → P l p → P l (Port.answers p r)
  presents : ∀ (i : Instr) (l : Link) (k : Byte) (payload : List Byte) (e : Edit) (clamped : Bool) (p : Port),
    requestLink i = some l → stagingCheck s payload i = some (.ok (e, clamped)) → p.buffer ≠ [] →
    responsesIn p.outbound = [] → P l p →
    P l (Port.presents p { kind := k, record := { origin := l, edit := e }, clamped := clamped })
  ends : ∀ l p q r, p.inProcess = some q → P l p → P l (Port.ends p r)
  masks : ∀ l p m, P l p → P l { p with mask := m }
  bytes : ∀ l p b, p.line = .isOpen → P l p → P l { p with rx := (p.rx.byte b).1 }
  completes : ∀ l p b m, p.line = .isOpen → (p.rx.byte b).2 = .complete m →
    bufferRoom p.buffer + m.room ≤ Config.bufferBytes → P l p →
    P l { p with rx := (p.rx.byte b).1, buffer := p.buffer ++ [m] }
  gaps : ∀ l p, P l p → P l { p with rx := .hunt }
  breaks : ∀ l p, P l p → P l p.broken
  opens : ∀ l p, P l p → P l { p with line := .isOpen }
  transmits : ∀ l p n, P l p → P l (p.transmit n)
  reset : ∀ l, P l (Port.reset l)

section Law

variable {s : State} {P : Link → Port → Prop} (law : PortLaw s P)

/-- The property at every port. -/
def AllPorts (P : Link → Port → Prop) (t : State) : Prop := ∀ l : Link, P l t.ports[l]

theorem allPorts_congr {P : Link → Port → Prop} {t u : State} (h : AllPorts P t) (hp : u.ports = t.ports) :
    AllPorts P u := by
  intro l
  rw [hp]
  exact h l

theorem allPorts_upd {P : Link → Port → Prop} {t u : State} {l : Link} {f : Port → Port} (h : AllPorts P t)
    (hp : u.ports = upd t.ports l f) (hf : P l (f t.ports[l])) : AllPorts P u := by
  intro l'
  rw [hp]
  by_cases e : l = l'
  · subst e
    simpa using hf
  · have hl' := h l'
    simp only [Fin.getElem_fin, getElem_upd, if_neg (Fin.val_ne_of_ne e)]
    exact hl'

include law

theorem allPorts_hand (l : Link) (b : NoticeBody) {t : State} (h : AllPorts P t) : AllPorts P (hand l b t) := by
  refine allPorts_upd (f := fun p => (p.hand (noticeChannel l b) b).1) h ?_ (law.hand l _ _ _ (h l))
  rw [hand_eq]
  rfl

theorem allPorts_handAll (ns : List (Link × NoticeBody)) : ∀ {t : State}, AllPorts P t → AllPorts P (handAll ns t) := by
  induction ns with
  | nil => exact id
  | cons n ns ih => exact fun h => ih (allPorts_hand law _ _ h)

theorem allPorts_notifyTiming (prev : TimingState) {t : State} (h : AllPorts P t) : AllPorts P (notifyTiming prev t) := by
  unfold notifyTiming
  split
  · exact h
  · exact allPorts_hand law _ _ h

theorem allPorts_answered {l : Link} (r : Response) {t : State} (h : AllPorts P t) (hp : t.ports[l].inProcess = none)
    (ho : responsesIn t.ports[l].outbound = []) : AllPorts P (answered l r t) :=
  allPorts_upd (f := fun p => Port.answers p r) h rfl (law.answers l _ _ hp ho (h l))

theorem allPorts_failCommit (c : CurrentCommit) (f : Failure) {t : State} (h : AllPorts P t) :
    AllPorts P (failCommit c f t) :=
  allPorts_handAll law _ (allPorts_congr h rfl)

theorem allPorts_frameStart (race : FrameRace) {t : State} (h : AllPorts P t) : AllPorts P (frameStart race t) := by
  intro l
  rw [frameStart_port]
  exact allPorts_handAll law _ h l

theorem allPorts_rejoin (c : Channel) (tag : Word32) {t : State} (h : AllPorts P t) : AllPorts P (rejoin c tag t) := by
  unfold rejoin
  split
  · exact allPorts_handAll law _ (allPorts_congr h rfl)
  · exact h

theorem allPorts_takeFrameEnd (c : Channel) (h : AllPorts P s) : AllPorts P (takeFrameEnd c s) := by
  unfold takeFrameEnd
  split
  · split
    · exact allPorts_congr h rfl
    · rename_i i _
      by_cases hbad : s.receivers[c].badFrame i (s.tables.active.records[c]).height = true
      · rw [judgeFrame_bad hbad]
        exact allPorts_congr h rfl
      · rw [judgeFrame_good hbad, frameCounted]
        split <;> exact allPorts_rejoin law _ _ (allPorts_congr h rfl)
  · exact h

theorem allPorts_takeHeader (c : Channel) (tag : Word32) (h : AllPorts P s) : AllPorts P (takeHeader c tag s) := by
  unfold takeHeader
  dsimp only
  split
  · exact allPorts_congr h rfl
  · exact allPorts_congr h rfl
  · exact allPorts_handAll law _ (allPorts_congr h rfl)

theorem allPorts_takeByte (l : Link) (b : Byte) (h : AllPorts P s) : AllPorts P (takeByte l b s) := by
  unfold takeByte
  split
  swap
  · exact h
  rename_i hopen
  have hrx : AllPorts P (setRx l (s.ports[l].rx.byte b).1 s) :=
    allPorts_upd (f := fun p => { p with rx := (s.ports[l].rx.byte b).1 }) h rfl (law.bytes l _ b hopen (h l))
  dsimp only
  cases he : (s.ports[l].rx.byte b).2 with
  | complete m =>
    have hbuffer : (setRx l (s.ports[l].rx.byte b).1 s).ports[l].buffer = s.ports[l].buffer := by simp [setRx]
    unfold rxEffect offerMessage
    dsimp only
    rw [hbuffer]
    split
    · refine allPorts_upd (t := s)
        (f := fun p => { p with rx := (s.ports[l].rx.byte b).1, buffer := p.buffer ++ [m] }) h ?_
        (law.completes l _ b m hopen he ‹_› (h l))
      simp only [setRx, upd_upd]
    · exact allPorts_congr hrx rfl
  | _ => exact allPorts_congr hrx rfl

theorem allPorts_takeTurn {l : Link} {q : Presented} (hq : s.ports[l].inProcess = some q) (h : AllPorts P s) :
    AllPorts P (takeTurn l q s) := by
  by_cases hfit : s.staging.occupancy + q.record.edit.units ≤ Config.queueUnits
  · rw [takeTurn_fits l hfit]
    exact allPorts_upd (f := fun p => Port.ends p _) h rfl (law.ends l _ q _ hq (h l))
  · rw [takeTurn_full l hfit]
    exact allPorts_upd (f := fun p => Port.ends p _) h rfl (law.ends l _ q _ hq (h l))

theorem allPorts_answerBusy {t : State} (h : AllPorts P t) : AllPorts P (answerBusy t) := by
  intro l
  have hport : (answerBusy t).ports[l] = t.ports[l].withdrawBusy := by simp [answerBusy]
  rw [hport]
  unfold Port.withdrawBusy
  split
  · exact h l
  · exact law.ends l _ _ _ ‹_› (h l)

theorem allPorts_restart (o : Handing) {t : State} (h : AllPorts P t) : AllPorts P (restart o t) := by
  have hblocks : AllPorts P (restartBlocks t) := allPorts_congr h rfl
  unfold restart
  cases o <;> dsimp only
  · exact allPorts_congr (allPorts_handAll law _ (allPorts_answerBusy law hblocks)) rfl
  · exact allPorts_congr (allPorts_answerBusy law (allPorts_handAll law _ hblocks)) rfl

omit law in
/-- Notices handed leave the request in process and the responses of a port. -/
theorem handAll_idle (ns : List (Link × NoticeBody)) {t : State} {l : Link} (hp : t.ports[l].inProcess = none)
    (ho : responsesIn t.ports[l].outbound = []) :
    (handAll ns t).ports[l].inProcess = none ∧ responsesIn (handAll ns t).ports[l].outbound = [] := by
  refine ⟨?_, (handAll_responses ns t l).trans ho⟩
  rw [handAll_held ns t l]
  exact hp

omit law in
theorem notifyTiming_idle (prev : TimingState) {t : State} {l : Link} (hp : t.ports[l].inProcess = none)
    (ho : responsesIn t.ports[l].outbound = []) :
    (notifyTiming prev t).ports[l].inProcess = none ∧ responsesIn (notifyTiming prev t).ports[l].outbound = [] := by
  unfold notifyTiming
  split
  · exact ⟨hp, ho⟩
  · exact handAll_idle [(SL, _)] hp ho

theorem allPorts_timingSet {l : Link} (taking : TimingTaking) (choice : TimingChoice) (h : AllPorts P s)
    (hp : s.ports[l].inProcess = none) (ho : responsesIn s.ports[l].outbound = []) :
    AllPorts P (timingSet l taking choice s) := by
  unfold timingSet
  cases taking.order <;> dsimp only
  · exact allPorts_notifyTiming law _ (allPorts_answered law _ (allPorts_congr h rfl) hp ho)
  · obtain ⟨hp', ho'⟩ := notifyTiming_idle s.timing.state
      (t := { s with timing := timingChosen taking choice s }) hp ho
    exact allPorts_answered law _ (allPorts_notifyTiming law _ (allPorts_congr h rfl)) hp' ho'

theorem allPorts_abortAnswered {l : Link} (o : Handing) (c : CurrentCommit) (h : AllPorts P s)
    (hp : s.ports[l].inProcess = none) (ho : responsesIn s.ports[l].outbound = []) :
    AllPorts P (abortAnswered l o c s) := by
  unfold abortAnswered
  cases o <;> dsimp only
  · exact allPorts_handAll law _ (allPorts_answered law _ (allPorts_congr h rfl) hp ho)
  · obtain ⟨hp', ho'⟩ := handAll_idle
      (commitHands c.link (.aborted c.link c.count s.engine.state (.abortCommit l))) (t := abandonCommit c s) hp ho
    exact allPorts_answered law _ (allPorts_handAll law _ (allPorts_congr h rfl)) hp' ho'

theorem allPorts_edited {i : Instr} {l : Link} {p : List Byte} {t : State} (r : Response) (hl : requestLink i = some l)
    (he : Edited p s i t) (h : AllPorts P s) (hp : s.ports[l].inProcess = none)
    (ho : responsesIn s.ports[l].outbound = []) : AllPorts P (answered l r t) := by
  cases he with
  | mask =>
    cases hl
    refine allPorts_answered law r (allPorts_upd (f := fun p => { p with mask := _ }) h rfl (law.masks l _ _ (h l))) ?_ ?_
    · simpa using hp
    · simpa using ho
  | _ => exact allPorts_answered law r (allPorts_congr h rfl) hp ho

theorem allPorts_carried {i : Instr} {l : Link} {m : Message} {t : State} (hl : requestLink i = some l)
    (hw : Waits l m.kind m.payload s) (hc : Carried m s i t) (h : AllPorts P s) : AllPorts P t := by
  obtain ⟨-, hp, ho, hhead⟩ := hw
  have ho := (responsesIn_eq_nil_iff _).mpr ho
  cases hc with
  | answers hl' =>
    cases hl.symm.trans hl'
    exact allPorts_answered law _ h hp ho
  | presents hl' hcheck =>
    cases hl.symm.trans hl'
    have hbuffer : s.ports[l].buffer ≠ [] := fun hnil => by rw [hnil] at hhead; cases hhead
    exact allPorts_upd (f := fun p => Port.presents p _) h rfl (law.presents i l _ _ _ _ _ hl hcheck hbuffer ho (h l))
  | accepts hl' he =>
    cases hl.symm.trans hl'
    exact allPorts_edited law _ hl he h hp ho
  | aborts =>
    cases hl
    exact allPorts_abortAnswered law _ _ h hp ho
  | timing =>
    cases hl
    exact allPorts_timingSet law _ _ h hp ho
  | timingStarts _ _ hov =>
    cases hl
    rw [takeStart_timingSet s hov]
    exact allPorts_frameStart law _ (allPorts_congr (allPorts_timingSet law _ _ h hp ho) rfl)
  | restarts =>
    cases hl
    exact allPorts_restart law _ (allPorts_answered law _ h hp ho)

/-- What every change of a port keeps, every command keeps at every port. -/
theorem allPorts_moves {i : Instr} {t : State} (hm : Moves s i t) (h : AllPorts P s) : AllPorts P t := by
  cases hm with
  | stays => exact h
  | request hl _ hw hc => exact allPorts_carried law hl hw hc h
  | turn hq => exact allPorts_takeTurn law hq h
  | applying => exact allPorts_congr h rfl
  | checking =>
    unfold finishChecking
    dsimp only
    split
    · exact allPorts_congr h rfl
    · exact allPorts_failCommit law _ _ (allPorts_congr h rfl)
  | normalizing =>
    unfold finishNormalizing
    split
    · exact allPorts_failCommit law _ _ h
    · exact allPorts_congr h rfl
  | flooring => exact allPorts_congr h rfl
  | lifting => exact allPorts_handAll law _ (allPorts_congr h rfl)
  | starts => exact allPorts_frameStart law _ (allPorts_congr h rfl)
  | pixel => rw [deliverPixel_frame]; exact allPorts_congr h rfl
  | header => exact allPorts_takeHeader law _ _ h
  | line => exact allPorts_congr h rfl
  | frameEnd => exact allPorts_takeFrameEnd law _ h
  | edge => exact allPorts_notifyTiming law _ (allPorts_congr h rfl)
  | holdover => exact allPorts_notifyTiming law _ (allPorts_congr h rfl)
  | byte => exact allPorts_takeByte law _ _ h
  | gap l =>
    unfold takeGap
    split
    · exact h
    · exact allPorts_congr (t := setRx l .hunt s)
        (allPorts_upd (f := fun p => { p with rx := .hunt }) h rfl (law.gaps l _ (h l))) rfl
  | breaks l =>
    unfold takeBreak
    split
    · exact allPorts_upd h rfl (law.breaks l _ (h l))
    · exact h
  | breakEnds l => exact allPorts_upd (f := fun p => { p with line := .isOpen }) h rfl (law.opens l _ (h l))
  | transmits l n => exact allPorts_upd h rfl (law.transmits l _ n (h l))
  | resets held =>
    intro l
    have hport : (hardResetState held s).ports[l] = Port.reset l := by simp [hardResetState, State.reset]
    rw [hport]
    exact law.reset l

end Law

end Sys2Proof.Proofs

/-! ### The ports stay sound (R178, R183, R186, R187, R195)

The invariant of a port is a law of its changes. What a hand of a notice and a byte of the transmitter leave of the queue is
said first. -/
namespace Sys2Proof.Proofs

open Sys2Proof.Machine

/-- No more bytes of the head message have been sent than it has. -/
def SentWithin (q : List OutMessage) (sent : Nat) : Prop := match q with
  | [] => sent = 0
  | m :: _ => sent < m.bytes.length

theorem bytes_length_pos (m : OutMessage) : 0 < m.bytes.length := by
  cases m <;> simp [OutMessage.bytes, messageBytes]

theorem sentWithin_zero (q : List OutMessage) : SentWithin q 0 := by
  cases q with
  | nil => rfl
  | cons m ms => exact bytes_length_pos m

theorem sentWithin_append {q : List OutMessage} {sent : Nat} (h : SentWithin q sent) (m : OutMessage) :
    SentWithin (q ++ [m]) sent := by
  cases q with
  | nil => exact (show sent = 0 from h) ▸ bytes_length_pos m
  | cons _ _ => exact h

theorem noticeCount_append (q r : List OutMessage) : noticeCount (q ++ r) = noticeCount q + noticeCount r := by
  simp [noticeCount]

theorem responsesIn_append (q r : List OutMessage) : responsesIn (q ++ r) = responsesIn q ++ responsesIn r :=
  List.filterMap_append

theorem noticeCount_eq_length_filterMap (q : List OutMessage) :
    noticeCount q = (q.filterMap fun m => if m.isNotice then some () else none).length := by
  induction q with
  | nil => rfl
  | cons m ms ih =>
    simp only [noticeCount, List.filter_cons, List.filterMap_cons] at ih ⊢
    cases m.isNotice <;> simp [ih]

section Coalesced

variable {k : NoticeKind} {ch : Option Channel} {lost : Bool} {b : NoticeBody} {q q' : List OutMessage}

theorem noticeCount_replaceLast (h : replaceLast (OutMessage.matchesNotice k ch) (coalesceInto ch lost b) q = some q') :
    noticeCount q' = noticeCount q := by
  rw [noticeCount_eq_length_filterMap, noticeCount_eq_length_filterMap]
  refine congrArg List.length (replaceLast_map _ _ _ (fun m _ => ?_) _ _ h)
  cases m <;> rfl

/-- A coalesced notice leaves the number of notices as it is, and the message being sent where it is. -/
theorem coalesce_kept {p : Port} (h : p.coalesce ch b = some q) (hs : SentWithin p.outbound p.sent) :
    noticeCount q = noticeCount p.outbound ∧ SentWithin q p.sent := by
  unfold Port.coalesce at h
  split at h
  · cases h
  rename_i m ms hout
  rw [hout] at hs ⊢
  split at h
  · obtain ⟨ms', hms, rfl⟩ := Option.map_eq_some_iff.mp h
    refine ⟨?_, hs⟩
    have hcount := noticeCount_replaceLast hms
    simp only [noticeCount, List.filter_cons] at hcount ⊢
    cases m.isNotice <;> simp [hcount]
  · rename_i hzero
    rw [Nat.eq_zero_of_not_pos hzero]
    exact ⟨noticeCount_replaceLast h, sentWithin_zero q⟩

end Coalesced

/-- A notice handed to a port keeps it within 15 notices, and the message being sent where it is. -/
theorem portHand_kept {p : Port} (ch : Option Channel) (b : NoticeBody) (hn : noticeCount p.outbound ≤ 15)
    (hs : SentWithin p.outbound p.sent) :
    noticeCount (p.hand ch b).1.outbound ≤ 15 ∧ SentWithin (p.hand ch b).1.outbound p.sent := by
  cases hmask : p.mask.admits b.kind with
  | false =>
    rw [portHand_masked ch hmask]
    exact ⟨hn, hs⟩
  | true =>
    rcases Nat.lt_or_ge (noticeCount p.outbound) 15 with hroom | hfull
    · rw [portHand_appends ch hmask hroom]
      refine ⟨?_, sentWithin_append hs _⟩
      rw [noticeCount_append]
      exact hroom
    · cases hq : p.coalesce ch b with
      | none =>
        rw [portHand_drops hmask hfull hq]
        exact ⟨hn, hs⟩
      | some q =>
        rw [portHand_coalesces hmask hfull hq]
        obtain ⟨hcount, hsent⟩ := coalesce_kept hq hs
        exact ⟨hcount.trans_le hn, hsent⟩

/-! #### The receiver of a link -/

theorem rxOk_headerDone (k low high : Byte) : rxOk (headerDone k low high).1 := by
  unfold headerDone
  dsimp only
  split
  · trivial
  split
  · exact Nat.zero_le _
  · exact ⟨Nat.pos_of_ne_zero ‹_›, Nat.le_of_not_lt ‹_›⟩

/-- A byte taken keeps the receiver within its state. -/
theorem rxOk_byte {r : Rx} (b : Byte) (h : rxOk r) : rxOk (r.byte b).1 := by
  cases r with
  | hunt => simp only [Rx.byte]; split <;> simp [rxOk]
  | header kept =>
    match kept, h with
    | [], _ => simp [Rx.byte, rxOk]
    | [k], _ => simp [Rx.byte, rxOk]
    | k :: l :: _, _ => exact rxOk_headerDone k l b
  | payload k n taken =>
    obtain ⟨hlt, hmax⟩ := h
    simp only [Rx.byte]
    split
    · exact ⟨by simpa using ‹_›, hmax⟩
    · simp only [rxOk, List.length_append, List.length_singleton]
      omega
  | check k taken low =>
    cases low with
    | none => exact h
    | some low => trivial

/-- A complete message comes from a state that held its payload. -/
theorem byte_complete {r : Rx} {b : Byte} {m : Message} (h : (r.byte b).2 = .complete m) (hok : rxOk r) :
    m.payload.length ≤ 2048 := by
  cases r with
  | hunt => cases h
  | header kept =>
    match kept with
    | [] => cases h
    | [k] => cases h
    | k :: l :: _ =>
      simp only [Rx.byte, headerDone] at h
      split at h
      · cases h
      · split at h <;> cases h
  | payload k n taken =>
    simp only [Rx.byte] at h
    split at h <;> cases h
  | check k taken low =>
    cases low with
    | none => cases h
    | some low =>
      simp only [Rx.byte, judgeCheck] at h
      split at h
      · cases h
        exact hok
      · cases h

/-! #### The transmitter -/

/-- The transmitter leaves the queue as it is or takes its head away. -/
theorem transmit_outbound (p : Port) (n : Nat) :
    (p.transmit n).outbound = p.outbound ∨ (p.transmit n).outbound = p.outbound.tail ∧ (p.transmit n).sent = 0 := by
  unfold Port.transmit
  split
  · exact .inl rfl
  rename_i m ms hout
  split
  · dsimp only
    split
    · exact .inr ⟨by rw [hout, List.tail_cons], rfl⟩
    · exact .inl rfl
  · exact .inl rfl

theorem transmit_sent {p : Port} (n : Nat) (h : SentWithin p.outbound p.sent) :
    SentWithin (p.transmit n).outbound (p.transmit n).sent := by
  unfold Port.transmit
  split
  · exact h
  rename_i m ms hout
  split
  · dsimp only
    split
    · exact sentWithin_zero ms
    · rw [hout]
      exact Nat.lt_of_not_le ‹_›
  · exact h

theorem transmit_frame (p : Port) (n : Nat) :
    (p.transmit n).inProcess = p.inProcess ∧ (p.transmit n).buffer = p.buffer ∧ (p.transmit n).rx = p.rx ∧
      (p.transmit n).line = p.line := by
  unfold Port.transmit
  split
  · exact ⟨rfl, rfl, rfl, rfl⟩
  split
  · dsimp only
    split <;> exact ⟨rfl, rfl, rfl, rfl⟩
  · exact ⟨rfl, rfl, rfl, rfl⟩

theorem responsesIn_tail_length (q : List OutMessage) : (responsesIn q.tail).length ≤ (responsesIn q).length :=
  ((List.tail_sublist q).filterMap _).length_le

theorem noticeCount_tail (q : List OutMessage) : noticeCount q.tail ≤ noticeCount q :=
  ((List.tail_sublist q).filter _).length_le

theorem bufferRoom_tail (ms : List Message) : bufferRoom ms.tail ≤ bufferRoom ms := by
  cases ms with
  | nil => exact Nat.le_refl _
  | cons m ms => simp [bufferRoom]

theorem tail_nil_of_broken {p : Port} (h : PortOk p) (hb : p.line = .broken) : p.buffer.tail = [] := by
  rw [(h.broken hb).2.1]
  rfl

theorem transmit_ok {p : Port} (n : Nat) (h : PortOk p) : PortOk (p.transmit n) := by
  obtain ⟨hprocess, hbuffer, hrx, hline⟩ := transmit_frame p n
  have hresponses : (responsesIn (p.transmit n).outbound).length ≤ (responsesIn p.outbound).length := by
    rcases transmit_outbound p n with hout | ⟨hout, -⟩ <;> rw [hout]
    exact responsesIn_tail_length _
  have hnotices : noticeCount (p.transmit n).outbound ≤ noticeCount p.outbound := by
    rcases transmit_outbound p n with hout | ⟨hout, -⟩ <;> rw [hout]
    exact noticeCount_tail _
  constructor
  case responses => exact hresponses.trans h.responses
  case inProcess =>
    intro hsome
    rw [hprocess] at hsome
    rw [h.inProcess hsome] at hresponses
    exact List.eq_nil_of_length_eq_zero (Nat.le_zero.mp hresponses)
  case notices => exact hnotices.trans h.notices
  case buffer => rw [hbuffer]; exact h.buffer
  case payloads => rw [hbuffer]; exact h.payloads
  case rx => rw [hrx]; exact h.rx
  case broken => rw [hline, hrx, hbuffer, hprocess]; exact h.broken
  case sent => exact transmit_sent n h.sent

theorem hand_ok {p : Port} (ch : Option Channel) (b : NoticeBody) (h : PortOk p) : PortOk (p.hand ch b).1 := by
  have hheld : PortHeld p (p.hand ch b).1 := Port.hand_held p ch b
  have hresponses := Port.hand_responses p ch b
  obtain ⟨hnotices, hsent⟩ := portHand_kept ch b h.notices h.sent
  rw [hheld]
  exact {
    responses := hresponses ▸ h.responses
    inProcess := fun hp => hresponses.trans (h.inProcess hp)
    notices := hnotices
    buffer := h.buffer
    payloads := h.payloads
    rx := h.rx
    broken := h.broken
    sent := hsent }

/-- Every change of a port keeps it sound. -/
theorem portLaw_ok (s : State) : PortLaw s fun _ p => PortOk p where
  hand _ _ ch b h := hand_ok ch b h
  answers _ p r hp ho h := {
    responses := by rw [Port.answers, responsesIn_append, ho]; exact Nat.le_refl 1
    inProcess := fun hsome => absurd hsome (by simp [Port.answers, hp])
    notices := by
      rw [Port.answers, noticeCount_append]
      exact h.notices
    buffer := (bufferRoom_tail _).trans h.buffer
    payloads := fun m hm => h.payloads m (List.mem_of_mem_tail hm)
    rx := h.rx
    broken := fun hb => ⟨(h.broken hb).1, tail_nil_of_broken h hb, hp⟩
    sent := sentWithin_append h.sent _ }
  presents _ _ _ _ _ _ p _ _ hbuffer ho h := {
    responses := h.responses
    inProcess := fun _ => ho
    notices := h.notices
    buffer := (bufferRoom_tail _).trans h.buffer
    payloads := fun m hm => h.payloads m (List.mem_of_mem_tail hm)
    rx := h.rx
    broken := fun hb => absurd (h.broken hb).2.1 hbuffer
    sent := h.sent }
  ends _ p _ r hp h := {
    responses := by
      rw [Port.ends, responsesIn_append, h.inProcess (by simp [hp])]
      exact Nat.le_refl 1
    inProcess := fun hsome => absurd hsome (by simp [Port.ends])
    notices := by
      rw [Port.ends, noticeCount_append]
      exact h.notices
    buffer := h.buffer
    payloads := h.payloads
    rx := h.rx
    broken := fun hb => ⟨(h.broken hb).1, (h.broken hb).2.1, rfl⟩
    sent := sentWithin_append h.sent _ }
  masks _ _ _ h := ⟨h.responses, h.inProcess, h.notices, h.buffer, h.payloads, h.rx, h.broken, h.sent⟩
  bytes _ p b hopen h := {
    h with
    rx := rxOk_byte b h.rx
    broken := fun hb => absurd (hopen.symm.trans hb) (by decide) }
  completes _ p b m hopen he hroom h := {
    h with
    buffer := by simpa [bufferRoom] using hroom
    payloads := fun m' hm' => (List.mem_append.mp hm').elim (h.payloads m') fun hm' => by
      rw [List.mem_singleton.mp hm']
      exact byte_complete he h.rx
    rx := rxOk_byte b h.rx
    broken := fun hb => absurd (hopen.symm.trans hb) (by decide) }
  gaps _ _ h := { h with rx := trivial, broken := fun hb => ⟨rfl, (h.broken hb).2⟩ }
  breaks _ _ h := {
    responses := Nat.zero_le _
    inProcess := fun hsome => absurd hsome (by simp [Port.broken])
    notices := Nat.zero_le _
    buffer := Nat.zero_le _
    payloads := fun m hm => absurd hm (by simp [Port.broken])
    rx := trivial
    broken := fun _ => ⟨rfl, rfl, rfl⟩
    sent := rfl }
  opens _ _ h := { h with broken := fun hb => absurd hb (by simp) }
  transmits _ _ n h := transmit_ok n h
  reset l := {
    responses := Nat.zero_le _
    inProcess := fun hsome => absurd hsome (by simp [Port.reset])
    notices := Nat.zero_le _
    buffer := Nat.zero_le _
    payloads := fun m hm => absurd hm (by simp [Port.reset])
    rx := trivial
    broken := fun _ => ⟨rfl, rfl, rfl⟩
    sent := rfl }

/-- Settles O54: what every change of a port keeps, every step keeps. -/
theorem portsStaySound : Obligations.PortsStaySound := by
  intro s t h hs
  exact step_keeps (P := PortsSound) (fun _ _ h => h) (fun s _ _ hm h => allPorts_moves (portLaw_ok s) hm h) hs h

end Sys2Proof.Proofs

/-! ### What a command does to the queue, the Commit Engine and the tables, said once

Every command leaves the Staging Queue, the Commit Engine and the Table Store as they are or takes one of the transitions
below. The invariants of commits are proved over these. -/
namespace Sys2Proof.Proofs

open Sys2Proof.Machine

/-- The queue, the engine and the tables. -/
structure CommitPart where
  staging : Staging
  engine : CommitEngine
  tables : TableStore

/-- The part of a state that commits are made of. -/
def commitPart (s : State) : CommitPart := ⟨s.staging, s.engine, s.tables⟩

/-- The transitions of the queue, the engine and the tables. -/
inductive CommitMoves (s : State) : CommitPart → Prop
  | stays : CommitMoves s (commitPart s)
  | discards (d : DiscardSelector) : CommitMoves s ⟨s.staging.discard d, s.engine, s.tables⟩
  | commits (l : Link) (h : s.engine.state = .idle) : CommitMoves s (commitPart (startCommit l s))
  | admits {l : Link} {q : Presented} (p : Link) (h : s.ports[l].inProcess = some q)
    (hfit : s.staging.occupancy + q.record.edit.units ≤ 8192) :
    CommitMoves s ⟨{ s.staging with records := s.staging.records ++ [q.record], pointer := p }, s.engine, s.tables⟩
  | turnsAway (p : Link) : CommitMoves s ⟨{ s.staging with pointer := p }, s.engine, s.tables⟩
  | ends (o : OutcomePart) (h : s.engine.state ≠ .idle) : CommitMoves s ⟨s.staging.clearMark, s.engine.finish o, s.tables⟩
  | applies {k : CurrentCommit} (h : PhaseAt s .applying k) : CommitMoves s (commitPart (finishApplying k s))
  | checks {k : CurrentCommit} (h : PhaseAt s .checking k) (hok : (checkBank s.tables.shadow).2 = none) :
    CommitMoves s (commitPart (nextPhase (checkBank s.tables.shadow).1 .normalizing k s))
  | checkFails (o : OutcomePart) {f : Failure} (h : s.engine.state = .checking)
    (hf : (checkBank s.tables.shadow).2 = some f) :
    CommitMoves s ⟨s.staging.clearMark, s.engine.finish o, s.tables.setShadow (checkBank s.tables.shadow).1⟩
  | normalizes {k : CurrentCommit} (h : PhaseAt s .normalizing k) (hz : s.tables.shadow.zeroPoint = none) :
    CommitMoves s (commitPart (nextPhase s.tables.shadow.normalized .flooring { k with leads := s.tables.shadow.leads } s))
  | floors {k : CurrentCommit} (h : PhaseAt s .flooring k) : CommitMoves s (commitPart (finishFlooring k s))
  | lifts {k k' : CurrentCommit} {e : CommitEngine} (h : PhaseAt s .lifting k) (hstate : e.state = .armed)
    (hcurrent : e.current = some k') (hcount : k'.count = k.count ∧ k'.units = k.units) :
    CommitMoves s ⟨s.staging, e, s.tables.setShadow (s.tables.shadow.lifted k.leads)⟩
  | swaps (o : OutcomePart) (h : s.engine.state = .armed) :
    CommitMoves s ⟨s.staging.removeMarked, s.engine.finish o, s.tables.swap⟩
  | restarts : CommitMoves s ⟨Staging.reset, s.engine.restarted, s.tables⟩
  | resets : CommitMoves s ⟨Staging.reset, { state := .idle, current := none, last := LastResult.reset }, s.tables.hardReset⟩

section CommitMoves

variable {s t : State} {i : Instr}

/-- A state with the same queue, engine and tables. -/
theorem CommitMoves.of_eq {c : CommitPart} (h : CommitMoves s c) (he : commitPart t = c) :
    CommitMoves s (commitPart t) := he ▸ h

theorem commitPart_handAll (ns : List (Link × NoticeBody)) (u : State) : commitPart (handAll ns u) = commitPart u := by
  rw [handAll_eq]
  rfl

theorem failCommit_moves (k : CurrentCommit) (f : Failure) (b : Bank) (u : State) :
    ∃ o, commitPart (failCommit k f { u with tables := u.tables.setShadow b }) =
      ⟨u.staging.clearMark, u.engine.finish o, u.tables.setShadow b⟩ :=
  ⟨_, commitPart_handAll _ _⟩

theorem frameStart_commitMoves (race : FrameRace) {u : State} (hu : commitPart u = commitPart s) :
    CommitMoves s (commitPart (frameStart race u)) := by
  obtain ⟨hstaging, hengine, htables⟩ := CommitPart.mk.inj hu
  have hpart : commitPart (frameStart race u) = commitPart (swapAt (decision u) u) := by
    unfold commitPart
    rw [frameStart_staging, frameStart_engine, frameStart_tables]
  rw [hpart, swapAt]
  cases hk : swapTaken (decision u) u with
  | none => exact CommitMoves.stays.of_eq hu
  | some k =>
    refine (CommitMoves.swaps (doneOutcome k (turnNumber (decision u) u)) ?_).of_eq ?_
    · rw [← hengine]
      exact ((swapTaken_eq_some_iff u k).mp hk).1
    · rw [← hstaging, ← hengine, ← htables]
      rfl

theorem takeTurn_commitMoves {l : Link} {q : Presented} (hq : s.ports[l].inProcess = some q) :
    CommitMoves s (commitPart (takeTurn l q s)) := by
  by_cases hfit : s.staging.occupancy + q.record.edit.units ≤ Config.queueUnits
  · rw [takeTurn_fits l hfit]
    exact .admits _ hq hfit
  · rw [takeTurn_full l hfit]
    exact .turnsAway _

theorem edited_commitMoves {p : List Byte} (h : Edited p s i t) : CommitMoves s (commitPart t) := by
  cases h with
  | discards => exact .discards _
  | commits _ hidle => exact .commits _ hidle
  | _ => exact .stays

theorem carried_commitMoves {m : Message} (h : Carried m s i t) : CommitMoves s (commitPart t) := by
  cases h with
  | answers => exact .stays
  | presents => exact .stays
  | accepts _ h =>
    have hmoves := edited_commitMoves h
    exact hmoves
  | aborts _ hs =>
    rw [abortAnswered_frame]
    exact .ends _ hs
  | timing =>
    rw [timingSet_frame]
    exact .stays
  | timingStarts _ _ ho =>
    rw [takeStart_timingSet s ho, timingSet_frame]
    exact frameStart_commitMoves _ rfl
  | restarts =>
    rw [restart_frame]
    exact .restarts

theorem moves_commitMoves (h : Moves s i t) : CommitMoves s (commitPart t) := by
  cases h with
  | request _ _ _ h => exact carried_commitMoves h
  | turn hq => exact takeTurn_commitMoves hq
  | applying h => exact .applies h
  | checking h =>
    unfold finishChecking
    dsimp only
    split
    · exact .checks h ‹_›
    · rename_i f hf
      obtain ⟨o, ho⟩ := failCommit_moves _ f (checkBank s.tables.shadow).1 s
      exact (CommitMoves.checkFails o h.2.1 hf).of_eq ho
  | normalizing h =>
    unfold finishNormalizing
    split
    · have hne : s.engine.state ≠ .idle := by rw [h.2.1]; decide
      exact (CommitMoves.ends _ hne).of_eq (commitPart_handAll _ _)
    · exact .normalizes h ‹_›
  | flooring h => exact .floors h
  | lifting h =>
    rw [finishLifting, commitPart_handAll]
    exact .lifts h rfl rfl ⟨rfl, rfl⟩
  | starts => exact frameStart_commitMoves _ rfl
  | resets => exact .resets
  | stays => exact .stays
  | pixel => rw [deliverPixel_frame]; exact .stays
  | header => rw [takeHeader_frame]; exact .stays
  | line => exact .stays
  | frameEnd => rw [takeFrameEnd_frame]; exact .stays
  | edge => rw [notifyTiming_frame]; exact .stays
  | holdover => rw [notifyTiming_frame]; exact .stays
  | byte => rw [takeByte_frame]; exact .stays
  | gap => rw [takeGap_frame]; exact .stays
  | breaks => rw [takeBreak_frame]; exact .stays
  | breakEnds => exact .stays
  | transmits => exact .stays

end CommitMoves

end Sys2Proof.Proofs

/-! ### Queue, mark and engine agree, and every record keeps its role (R73, R80, R90, R191) -/
namespace Sys2Proof.Proofs

open Sys2Proof.Machine

/-! #### The queue and the engine -/

/-- The mark and the Commit Engine agree: IDLE without a mark and a current commit, or a mark that counts the first records
and their units, as the current commit does. -/
inductive MarkAgrees (q : Staging) (e : CommitEngine) : Prop
  | idle (hstate : e.state = .idle) (hcurrent : e.current = none) (hmark : q.mark = none)
  | busy {k : CurrentCommit} {m : Mark} (hstate : e.state ≠ .idle) (hcurrent : e.current = some k) (hmark : q.mark = some m)
    (hcounts : m.count = k.count ∧ m.units = k.units)
    (hmarked : m.count ≤ q.records.length ∧ m.units = unitsOf (q.records.take m.count))

theorem commitSound_iff (s : State) :
    CommitSound s ↔ s.staging.occupancy ≤ 8192 ∧ MarkAgrees s.staging s.engine := by
  constructor
  · intro h
    refine ⟨h.occupancy, ?_⟩
    by_cases hstate : s.engine.state = .idle
    · exact .idle hstate (h.current.mp hstate) (h.mark.mp hstate)
    · obtain ⟨k, hk⟩ := Option.ne_none_iff_exists'.mp (mt h.current.mpr hstate)
      obtain ⟨m, hm⟩ := Option.ne_none_iff_exists'.mp (mt h.mark.mpr hstate)
      exact .busy hstate hk hm (h.counts m k hm hk) (h.marked m hm)
  · rintro ⟨hocc, ⟨hstate, hcurrent, hmark⟩ | ⟨hstate, hcurrent, hmark, hcounts, hmarked⟩⟩
    · exact ⟨hocc, by simp [hstate, hcurrent], by simp [hstate, hmark], by simp [hmark], by simp [hmark]⟩
    · refine ⟨hocc, by simp [hstate, hcurrent], by simp [hstate, hmark], fun m' k' hm' hk' => ?_, fun m' hm' => ?_⟩
      · cases hmark.symm.trans hm'
        cases hcurrent.symm.trans hk'
        exact hcounts
      · cases hmark.symm.trans hm'
        exact hmarked

section Queue

variable {q : Staging} {e e' : CommitEngine}

/-- The agreement stays while the mark, the marked records and the engine stay. -/
theorem MarkAgrees.of_queue {q' : Staging} (h : MarkAgrees q e) (hmark : q'.mark = q.mark)
    (hlength : ∀ m, q.mark = some m → m.count ≤ q.records.length → m.count ≤ q'.records.length)
    (htake : ∀ m, q.mark = some m → m.count ≤ q.records.length → q'.records.take m.count = q.records.take m.count) :
    MarkAgrees q' e := by
  cases h with
  | idle hstate hcurrent hnone => exact .idle hstate hcurrent (hmark.trans hnone)
  | busy hstate hcurrent hsome hcounts hmarked =>
    exact .busy hstate hcurrent (hmark.trans hsome) hcounts
      ⟨hlength _ hsome hmarked.1, (htake _ hsome hmarked.1).symm ▸ hmarked.2⟩

/-- The agreement stays while the engine goes from one phase to another with the same counts. -/
theorem MarkAgrees.of_phase {k k' : CurrentCommit} (h : MarkAgrees q e) (hk : e.current = some k)
    (hstate : e'.state ≠ .idle) (hcurrent : e'.current = some k') (hcount : k'.count = k.count ∧ k'.units = k.units) :
    MarkAgrees q e' := by
  cases h with
  | idle _ hnone _ => exact absurd (hnone.symm.trans hk) (by simp)
  | busy _ hsome hmark hcounts hmarked =>
    cases hsome.symm.trans hk
    exact .busy hstate hcurrent hmark ⟨hcounts.1.trans hcount.1.symm, hcounts.2.trans hcount.2.symm⟩ hmarked

theorem markedCount_of_mark {m : Mark} (h : q.mark = some m) : q.markedCount = m.count := by
  simp [Staging.markedCount, h]

theorem discard_occupancy (q : Staging) (d : DiscardSelector) : (q.discard d).occupancy ≤ q.occupancy := by
  have h := unitsOf_kept_add_removed q.markedCount d.hits q.records
  simp only [Staging.occupancy, Staging.discard, Staging.marked, Staging.unmarked]
  omega

/-- The marked records stay at the head of the queue. -/
theorem discard_take {d : DiscardSelector} {m : Mark} (hm : q.mark = some m) (hlength : m.count ≤ q.records.length) :
    m.count ≤ (q.discard d).records.length ∧ (q.discard d).records.take m.count = q.records.take m.count := by
  have hmarked : q.marked.length = m.count := by simp [Staging.marked, markedCount_of_mark hm, hlength]
  constructor
  · simp only [Staging.discard, List.length_append, hmarked]
    exact Nat.le_add_right _ _
  · rw [Staging.discard, List.take_left' hmarked, Staging.marked, markedCount_of_mark hm]

theorem removeMarked_occupancy (q : Staging) : q.removeMarked.occupancy ≤ q.occupancy := by
  have h := unitsOf_append (q.records.take q.markedCount) (q.records.drop q.markedCount)
  rw [List.take_append_drop] at h
  simp only [Staging.occupancy, Staging.removeMarked, Staging.unmarked]
  omega

end Queue

theorem restarted_idle {e : CommitEngine} (h : e.state = .idle → e.current = none) :
    e.restarted.state = .idle ∧ e.restarted.current = none := by
  obtain ⟨state, current, last⟩ := e
  unfold CommitEngine.restarted
  cases state <;> cases current <;> simp_all [CommitEngine.finish]

/-- Every transition keeps the queue within its units and in agreement with the engine. -/
theorem commitMoves_agrees {s : State} {c : CommitPart} (hm : CommitMoves s c) (hocc : s.staging.occupancy ≤ 8192)
    (h : MarkAgrees s.staging s.engine) : c.staging.occupancy ≤ 8192 ∧ MarkAgrees c.staging c.engine := by
  cases hm with
  | stays => exact ⟨hocc, h⟩
  | discards d =>
    exact ⟨(discard_occupancy _ d).trans hocc,
      h.of_queue rfl (fun _ hm hl => (discard_take hm hl).1) fun _ hm hl => (discard_take hm hl).2⟩
  | commits l hidle =>
    exact ⟨hocc, .busy (by simp [commitPart, startCommit]) rfl rfl ⟨rfl, rfl⟩
      ⟨Nat.le_refl _, by simp [commitPart, startCommit, Staging.occupancy]⟩⟩
  | admits _ _ hfit =>
    refine ⟨?_, h.of_queue rfl (fun m _ hl => ?_) fun m _ hl => ?_⟩
    · simpa [Staging.occupancy, unitsOf] using hfit
    · simp only [List.length_append]
      omega
    · exact List.take_append_of_le_length hl
  | turnsAway => exact ⟨hocc, h.of_queue rfl (fun _ _ hl => hl) fun _ _ _ => rfl⟩
  | ends => exact ⟨hocc, .idle rfl rfl rfl⟩
  | applies hk => exact ⟨hocc, h.of_phase hk.2.2 (by simp [commitPart, finishApplying, nextPhase]) rfl ⟨rfl, rfl⟩⟩
  | checks hk => exact ⟨hocc, h.of_phase hk.2.2 (by simp [commitPart, nextPhase]) rfl ⟨rfl, rfl⟩⟩
  | checkFails => exact ⟨hocc, .idle rfl rfl rfl⟩
  | normalizes hk => exact ⟨hocc, h.of_phase hk.2.2 (by simp [commitPart, nextPhase]) rfl ⟨rfl, rfl⟩⟩
  | floors hk => exact ⟨hocc, h.of_phase hk.2.2 (by simp [commitPart, finishFlooring, nextPhase]) rfl ⟨rfl, rfl⟩⟩
  | lifts hk hstate hcurrent hcount => exact ⟨hocc, h.of_phase hk.2.2 (by simp [hstate]) hcurrent hcount⟩
  | swaps => exact ⟨(removeMarked_occupancy _).trans hocc, .idle rfl rfl rfl⟩
  | restarts =>
    have hidle : s.engine.state = .idle → s.engine.current = none := fun hs => by
      cases h with
      | idle _ hcurrent _ => exact hcurrent
      | busy hstate => exact absurd hs hstate
    obtain ⟨hstate, hcurrent⟩ := restarted_idle hidle
    exact ⟨Nat.zero_le _, .idle hstate hcurrent rfl⟩
  | resets => exact ⟨Nat.zero_le _, .idle rfl rfl rfl⟩

theorem commitSound_step {s t : State} (h : step s = .next t) (hs : CommitSound s) : CommitSound t := by
  refine step_keeps (P := CommitSound) (fun s q h => ?_) (fun s i t hm h => ?_) h hs
  · exact (commitSound_iff _).mpr ((commitSound_iff s).mp h)
  · obtain ⟨hocc, hagrees⟩ := (commitSound_iff s).mp h
    exact (commitSound_iff t).mpr (commitMoves_agrees (moves_commitMoves hm) hocc hagrees)

/-! #### Records queued and presented -/

/-- Every record queued was queued before, or was presented. -/
theorem commitMoves_records {s : State} {c : CommitPart} (hm : CommitMoves s c) {r : EditRecord}
    (hr : r ∈ c.staging.records) :
    r ∈ s.staging.records ∨ ∃ (l : Link) (q : Presented), s.ports[l].inProcess = some q ∧ r = q.record := by
  cases hm with
  | discards d =>
    refine .inl ?_
    rcases List.mem_append.mp hr with hmarked | hbehind
    · exact List.mem_of_mem_take hmarked
    · exact List.mem_of_mem_drop (List.mem_of_mem_filter hbehind)
  | admits p h =>
    rcases List.mem_append.mp hr with hold | hnew
    · exact .inl hold
    · exact .inr ⟨_, _, h, List.mem_singleton.mp hnew⟩
  | swaps => exact .inl (List.mem_of_mem_drop hr)
  | restarts => cases hr
  | resets => cases hr
  | _ => exact .inl hr

/-- What holds of every record that a staging request presents, holds of every request in process. -/
theorem presentedLaw {s : State} {Q : Link → Presented → Prop}
    (hnew : ∀ (i : Instr) (l : Link) (k : Byte) (p : List Byte) (e : Edit) (clamped : Bool),
      requestLink i = some l → stagingCheck s p i = some (.ok (e, clamped)) →
      Q l { kind := k, record := { origin := l, edit := e }, clamped := clamped }) :
    PortLaw s fun l p => ∀ q, p.inProcess = some q → Q l q where
  hand _ p ch b h := by rw [Port.hand_held p ch b]; exact h
  answers _ _ _ _ _ h := h
  presents i l k p e clamped _ hl hcheck _ _ _ q hq := by
    cases hq
    exact hnew i l k p e clamped hl hcheck
  ends _ _ _ _ _ _ q hq := by cases hq
  masks _ _ _ h := h
  bytes _ _ _ _ h := h
  completes _ _ _ _ _ _ _ h := h
  gaps _ _ h := h
  breaks _ _ _ q hq := by cases hq
  opens _ _ h := h
  transmits _ p n h := by rw [(transmit_frame p n).1]; exact h
  reset _ q hq := by cases hq

/-! #### What a staging request that passes its checks presents (R8, R9, R13, R14, R21, R22) -/

theorem foreignTile_eq_false {l : Link} {c : Channel} : foreignTile l c = false ↔ l = SL ∨ l.val = c.val := by
  simp only [foreignTile, decide_eq_false_iff_not, not_and_or, not_not]

theorem chan?_eq_some {n : Nat} {c : Channel} : chan? n = some c ↔ n = c.val := by
  unfold chan?
  split
  · simp [Fin.ext_iff]
  · have := c.isLt
    simp only [reduceCtorEq, false_iff]
    omega

section Checks

variable {s : State} {l : Link} {p : List Byte} {e : Edit} {clamped : Bool}

theorem checkStageNodes_ok (h : checkStageNodes l s p = .ok (e, clamped)) :
    ∃ c : Channel, foreignTile l c = false ∧ u16 p 1 + u8 p 3 ≤ 1066 ∧
      e = .nodes c (u16 p 1) (nodeMaskOf p) (nodeEntriesOf p) := by
  unfold checkStageNodes at h
  split at h
  · cases h
  split at h
  · cases h
  rename_i c _
  split at h
  · cases h
  split at h
  · cases h
  rename_i hrun
  split at h
  · cases h
  rename_i htile
  split at h
  · cases h
  cases h
  exact ⟨c, Bool.eq_false_iff.mpr htile, Nat.le_of_not_lt hrun, rfl⟩

theorem checkStageSeam_ok (h : checkStageSeam l s p = .ok (e, clamped)) :
    ∃ (id : SeamId) (ms : List Channel), membersOf? (seamMembersOf p) = some ms ∧ (2 ≤ u8 p 1 ∧ u8 p 1 ≤ 4) ∧
      (1 ≤ u8 p 2 ∧ u8 p 2 ≤ 96) ∧ (∀ q ∈ seamPointsOf p, ∀ n ∈ q, n.node < 1066) ∧
      ms.all (foreignTile l) = false ∧ e = .seam id { members := ms, points := seamPointsOf p } := by
  unfold checkStageSeam at h
  split at h
  · cases h
  split at h
  · cases h
  rename_i id _
  split at h
  · cases h
  rename_i hcount
  split at h
  · cases h
  rename_i ms hms
  split at h
  · cases h
  rename_i hpoints
  split at h
  · cases h
  rename_i hnodes
  split at h
  · cases h
  rename_i htile
  split at h
  · cases h
  cases h
  refine ⟨id, ms, hms, by omega, by omega, fun q hq n hn => ?_, Bool.eq_false_iff.mpr htile, rfl⟩
  by_contra hpast
  exact hnodes (List.any_eq_true.mpr ⟨q, hq, List.any_eq_true.mpr ⟨n, hn, decide_eq_true (Nat.le_of_not_lt hpast)⟩⟩)

theorem checkDropSeam_ok (h : checkDropSeam l s p = .ok (e, clamped)) : ∃ id : SeamId, e = .seamDrop id := by
  unfold checkDropSeam at h
  split at h
  · cases h
  split at h
  · cases h
  split at h
  · cases h
    exact ⟨_, rfl⟩
  split at h
  · cases h
  split at h
  · cases h
  split at h
  · cases h
  cases h
  exact ⟨_, rfl⟩

theorem checkStageChannel_ok (h : checkStageChannel l s p = .ok (e, clamped)) :
    ∃ c : Channel, foreignTile l c = false ∧
      ((channelMaskOf p).raster = true → inputRasterOk (u16 p 2) (u16 p 4) = true) ∧
      e = .channel c (channelMaskOf p) (channelValuesOf p) := by
  unfold checkStageChannel at h
  split at h
  · cases h
  split at h
  · cases h
  rename_i c _
  dsimp only at h
  split at h
  · cases h
  rename_i hvalues
  split at h
  · cases h
  rename_i htile
  split at h
  · cases h
  cases h
  exact ⟨c, Bool.eq_false_iff.mpr htile,
    fun hm => Bool.of_not_eq_false fun hbad => hvalues (.inr ⟨hm, hbad⟩), rfl⟩

theorem checkStageFloor_ok (h : checkStageFloor l p = .ok (e, clamped)) : l = SL ∧ floorEditOf? p = some e := by
  unfold checkStageFloor at h
  split at h
  · cases h
  split at h
  · cases h
  rename_i hl
  split at h
  · cases h
  split at h
  · cases h
  cases h
  exact ⟨not_not.mp hl, ‹_›⟩

theorem checkStageLut_ok (h : checkStageLut l s p = .ok (e, clamped)) :
    ∃ t : LutTarget, t.forbids l = false ∧ u16 p 1 + u16 p 3 ≤ t.size ∧ e = .lut t (u16 p 1) (lutValuesOf t p) := by
  unfold checkStageLut at h
  split at h
  · cases h
  split at h
  · cases h
  rename_i t _
  split at h
  · cases h
  split at h
  · cases h
  rename_i hrun
  split at h
  · cases h
  rename_i htile
  split at h
  · cases h
  cases h
  exact ⟨t, Bool.eq_false_iff.mpr htile, Nat.le_of_not_lt hrun, rfl⟩

theorem floorEditOf?_eq_some (h : floorEditOf? p = some e) :
    ∃ f, e = .floor (floorMaskOf p) f (if (floorMaskOf p).phiSet then min 16383 (u16 p 2) else u16 p 2)
      (if (floorMaskOf p).tau then min 64 (u8 p 4) else u8 p 4) := by
  unfold floorEditOf? at h
  dsimp only at h
  split at h
  · obtain ⟨f, -, rfl⟩ := Option.map_eq_some_iff.mp h
    exact ⟨f, rfl⟩
  · cases h
    exact ⟨.fixed, rfl⟩

/-- What a staging request presents is within its sender's role. -/
theorem stagingCheck_role {i : Instr} (hl : requestLink i = some l) (h : stagingCheck s p i = some (.ok (e, clamped))) :
    withinRole l e := by
  cases i with
  | stageNodes =>
    cases hl
    obtain ⟨c, htile, -, rfl⟩ := checkStageNodes_ok (Option.some.inj h)
    exact foreignTile_eq_false.mp htile
  | stageSeam =>
    cases hl
    obtain ⟨id, ms, -, -, -, -, htile, rfl⟩ := checkStageSeam_ok (Option.some.inj h)
    obtain ⟨c, hc, hown⟩ := List.all_eq_false.mp htile
    exact (foreignTile_eq_false.mp (Bool.eq_false_iff.mpr hown)).imp_right fun hv => ⟨c, hc, hv⟩
  | dropSeam =>
    obtain ⟨id, rfl⟩ := checkDropSeam_ok (Option.some.inj h)
    trivial
  | stageChannel =>
    cases hl
    obtain ⟨c, htile, -, rfl⟩ := checkStageChannel_ok (Option.some.inj h)
    exact foreignTile_eq_false.mp htile
  | stageFloor =>
    cases hl
    obtain ⟨hSL, hedit⟩ := checkStageFloor_ok (Option.some.inj h)
    obtain ⟨f, rfl⟩ := floorEditOf?_eq_some hedit
    exact hSL
  | stageLut =>
    cases hl
    obtain ⟨t, htile, -, rfl⟩ := checkStageLut_ok (Option.some.inj h)
    cases t with
    | input => simpa [LutTarget.forbids, withinRole] using htile
    | output c k => exact foreignTile_eq_false.mp htile
  | _ => cases h

end Checks

/-! #### The roles -/

theorem rolesKept_step {s t : State} (h : step s = .next t) (hs : RolesKept s) : RolesKept t := by
  refine step_keeps (P := RolesKept) (fun _ _ h => ⟨h.queued, h.presented⟩) (fun s i t hm h => ⟨fun r hr => ?_, ?_⟩) h hs
  · rcases commitMoves_records (moves_commitMoves hm) hr with hold | ⟨l, q, hq, rfl⟩
    · exact h.queued r hold
    · obtain ⟨horigin, hrole⟩ := h.presented l q hq
      rw [horigin]
      exact hrole
  · exact allPorts_moves (presentedLaw fun i l k p e clamped hl hcheck => ⟨rfl, stagingCheck_role hl hcheck⟩) hm
      h.presented

/-- Settles O55: by the transitions of the queue and the engine, and by the changes of a port. -/
theorem queueStaysSound : Obligations.QueueStaysSound :=
  fun _ _ h => ⟨commitSound_step h, rolesKept_step h⟩

end Sys2Proof.Proofs

/-! ### The frame banks of a receiver, bank by bank (R116 to R128)

A receiver has one SHOWN bank and at most one READY and one FILLING, so what an action does to "the bank in a state" is a
change of each bank by its own state alone. -/
namespace Sys2Proof.Proofs

open Sys2Proof.Machine

/-- The banks of a sound receiver: one SHOWN, no two in one state but FREE, one FILLING exactly in RECEIVING. -/
structure BanksOk (r : Receiver) : Prop where
  shown : ∃ i : Fin 3, r.banks[i].state = .shown
  sole : ∀ st, st ≠ .free → SoleIn r st
  filling : (∃ i : Fin 3, r.banks[i].state = .filling) ↔ r.state = .receiving
  codes : ∀ i : Fin 3, r.banks[i].wf = true

theorem card_banksIn_le_one {r : Receiver} {st : BankState} (h : SoleIn r st) : (banksIn r st).card ≤ 1 :=
  Finset.card_le_one_iff.mpr fun hi hj => h _ _ (mem_banksIn.mp hi) (mem_banksIn.mp hj)

theorem card_banksIn_eq_one {r : Receiver} {st : BankState} (h : SoleIn r st) (he : ∃ i : Fin 3, r.banks[i].state = st) :
    (banksIn r st).card = 1 := by
  obtain ⟨i, hi⟩ := he
  exact Nat.le_antisymm (card_banksIn_le_one h) (Finset.card_pos.mpr ⟨i, mem_banksIn.mpr hi⟩)

theorem card_banksIn_eq_zero {r : Receiver} {st : BankState} (h : ¬ ∃ i : Fin 3, r.banks[i].state = st) :
    (banksIn r st).card = 0 :=
  Finset.card_eq_zero.mpr (Finset.eq_empty_of_forall_notMem fun i hi => h ⟨i, mem_banksIn.mp hi⟩)

theorem receiverOk_iff (r : Receiver) : ReceiverOk r ↔
    BanksOk r ∧ (r.lossCount ≤ 15 ∧ (r.state ≠ .lost → r.lossCount ≤ 14)) ∧ r.lineCount ≤ 65535 := by
  constructor
  · intro h
    have hshown : (banksIn r .shown).card = 1 := (length_filter_state_eq_card r .shown).symm.trans h.shown
    refine ⟨⟨?_, fun st hst => ?_, ?_, h.codes⟩, h.loss, h.lines⟩
    · obtain ⟨i, hi⟩ := Finset.card_pos.mp (hshown.symm ▸ Nat.one_pos)
      exact ⟨i, mem_banksIn.mp hi⟩
    · cases st with
      | free => exact absurd rfl hst
      | filling => exact soleIn_filling h
      | ready => exact soleIn_ready h
      | shown => exact soleIn_of_card hshown.le
    · refine ⟨fun ⟨i, hi⟩ => ?_, fun hs => ?_⟩
      · by_contra hs
        exact not_filling h hs i hi
      · obtain ⟨i, hi⟩ := Finset.card_pos.mp (by rw [card_filling h, if_pos hs]; decide)
        exact ⟨i, mem_banksIn.mp hi⟩
  · rintro ⟨h, hloss, hlines⟩
    refine ⟨?_, ?_, ?_, hloss, hlines, h.codes⟩
    · rw [length_filter_state_eq_card]
      exact card_banksIn_eq_one (h.sole _ (by decide)) h.shown
    · rw [length_filter_state_eq_card]
      exact card_banksIn_le_one (h.sole _ (by decide))
    · rw [length_filter_state_eq_card]
      split
      · exact card_banksIn_eq_one (h.sole _ (by decide)) (h.filling.mpr ‹_›)
      · exact card_banksIn_eq_zero (mt h.filling.mp ‹_›)

/-- A bank of a promotion: READY becomes SHOWN and SHOWN FREE (R126). -/
def promotedBank (b : FrameBank) : FrameBank :=
  { b with state := match b.state with
      | .ready => .shown
      | .shown => .free
      | .filling => .filling
      | .free => .free }

/-- A bank of a raster change: SHOWN is cleared, any other goes FREE (R128). -/
def rasterBank (b : FrameBank) : FrameBank := if b.state = .shown then FrameBank.cleared else { b with state := .free }

theorem freedFrom_state_eq {st st' : BankState} (b : FrameBank) (h : st' ≠ .free) :
    (freedFrom st b).state = st' ↔ b.state = st' ∧ st' ≠ st := by
  obtain ⟨state, tag, malformed, rows⟩ := b
  cases st <;> cases st' <;> cases state <;> simp_all [freedFrom]

theorem promotedBank_state_eq (b : FrameBank) {st : BankState} (h : st ≠ .free) :
    (promotedBank b).state = st ↔ (st = .shown ∧ b.state = .ready) ∨ (st = .filling ∧ b.state = .filling) := by
  obtain ⟨state, tag, malformed, rows⟩ := b
  cases st <;> cases state <;> simp_all [promotedBank]

theorem rasterBank_state_eq (b : FrameBank) {st : BankState} (h : st ≠ .free) :
    (rasterBank b).state = st ↔ st = .shown ∧ b.state = .shown := by
  obtain ⟨state, tag, malformed, rows⟩ := b
  cases st <;> cases state <;> simp_all [rasterBank, FrameBank.cleared]

@[simp] theorem freedFrom_wf (st : BankState) (b : FrameBank) : (freedFrom st b).wf = b.wf := rfl

@[simp] theorem promotedBank_wf (b : FrameBank) : (promotedBank b).wf = b.wf := rfl

theorem cleared_wf : FrameBank.cleared.wf = true := by decide

theorem rasterBank_wf {b : FrameBank} (h : b.wf = true) : (rasterBank b).wf = true := by
  unfold rasterBank
  split
  · exact cleared_wf
  · exact h

section Maps

variable {r r' : Receiver}

/-- The banks once those in one state have gone FREE. -/
theorem banksOk_freed {st : BankState} (h : BanksOk r) (hb : ∀ j : Fin 3, r'.banks[j] = freedFrom st r.banks[j])
    (hst : st ≠ .shown)
    (hs : (r.state = .receiving ∧ st ≠ .filling) ↔ r'.state = .receiving) : BanksOk r' where
  shown := by
    obtain ⟨i, hi⟩ := h.shown
    exact ⟨i, by rw [hb]; exact (freedFrom_state_eq _ (by decide)).mpr ⟨hi, hst.symm⟩⟩
  sole st' hne i j hi hj := by
    rw [hb, freedFrom_state_eq _ hne] at hi hj
    exact h.sole st' hne i j hi.1 hj.1
  filling := by
    rw [← hs, ← h.filling, ← exists_and_right]
    exact exists_congr fun i => by rw [hb, freedFrom_state_eq _ (by decide), ne_comm]
  codes i := by rw [hb, freedFrom_wf]; exact h.codes i

theorem banksOk_promoted (h : BanksOk r) (hready : ∃ i : Fin 3, r.banks[i].state = .ready)
    (hb : ∀ j : Fin 3, r'.banks[j] = promotedBank r.banks[j]) (hs : r'.state = r.state) : BanksOk r' where
  shown := by
    obtain ⟨i, hi⟩ := hready
    exact ⟨i, by rw [hb]; exact (promotedBank_state_eq _ (by decide)).mpr (.inl ⟨rfl, hi⟩)⟩
  sole st hne i j hi hj := by
    rw [hb, promotedBank_state_eq _ hne] at hi hj
    rcases hi with ⟨hst, hi⟩ | ⟨rfl, hi⟩
    · exact h.sole .ready (by decide) i j hi (by simpa [hst] using hj)
    · exact h.sole .filling (by decide) i j hi (by simpa using hj)
  filling := by
    rw [hs, ← h.filling]
    exact exists_congr fun i => by rw [hb, promotedBank_state_eq _ (by decide)]; simp
  codes i := by rw [hb, promotedBank_wf]; exact h.codes i

theorem banksOk_raster (h : BanksOk r) (hb : ∀ j : Fin 3, r'.banks[j] = rasterBank r.banks[j])
    (hs : r'.state ≠ .receiving) : BanksOk r' where
  shown := by
    obtain ⟨i, hi⟩ := h.shown
    exact ⟨i, by rw [hb]; exact (rasterBank_state_eq _ (by decide)).mpr ⟨rfl, hi⟩⟩
  sole st hne i j hi hj := by
    rw [hb, rasterBank_state_eq _ hne] at hi hj
    exact h.sole .shown (by decide) i j hi.2 hj.2
  filling := by
    refine iff_of_false ?_ hs
    rintro ⟨i, hi⟩
    rw [hb, rasterBank_state_eq _ (by decide)] at hi
    cases hi.1
  codes i := by rw [hb]; exact rasterBank_wf (h.codes i)

/-- The banks once one of them has gone from FREE or FILLING to FILLING, READY or FREE. -/
theorem banksOk_one {i : Fin 3} {st : BankState} (h : BanksOk r)
    (hi : r.banks[i].state = .free ∨ r.banks[i].state = .filling) (hst : st ≠ .shown)
    (hwf : r'.banks[i].wf = true) (hsame : r'.banks[i].state = st)
    (hother : ∀ j : Fin 3, j ≠ i → r'.banks[j].wf = true ∧
      ∀ st', st' ≠ .free → (r'.banks[j].state = st' ↔ r.banks[j].state = st' ∧ st' ≠ .filling ∧ st' ≠ st))
    (hs : st = .filling ↔ r'.state = .receiving) : BanksOk r' where
  shown := by
    obtain ⟨j, hj⟩ := h.shown
    have hji : j ≠ i := by
      rintro rfl
      rcases hi with hi | hi <;> rw [hi] at hj <;> cases hj
    exact ⟨j, ((hother j hji).2 _ (by decide)).mpr ⟨hj, by decide, hst.symm⟩⟩
  sole st' hne j k hj hk := by
    by_cases hji : j = i <;> by_cases hki : k = i
    · exact hji.trans hki.symm
    · rw [hji, hsame] at hj
      exact absurd hj.symm (((hother k hki).2 _ hne).mp hk).2.2
    · rw [hki, hsame] at hk
      exact absurd hk.symm (((hother j hji).2 _ hne).mp hj).2.2
    · exact h.sole st' hne j k (((hother j hji).2 _ hne).mp hj).1 (((hother k hki).2 _ hne).mp hk).1
  filling := by
    rw [← hs]
    refine ⟨fun ⟨j, hj⟩ => ?_, fun hf => ⟨i, hsame.trans hf⟩⟩
    by_cases hji : j = i
    · exact hsame.symm.trans (hji ▸ hj)
    · exact absurd rfl (((hother j hji).2 _ (by decide)).mp hj).2.1
  codes j := by
    by_cases hji : j = i
    · exact hji ▸ hwf
    · exact (hother j hji).1

end Maps

/-! #### Headers, lines and frame ends -/

section Stream

variable {r : Receiver}

theorem header_ok (tag : Word32) (h : ReceiverOk r) : ReceiverOk (r.header tag) := by
  obtain ⟨hbanks, -, -⟩ := (receiverOk_iff r).mp h
  obtain ⟨i, hfound, hi, -⟩ := receptionEnded_free h
  have hheader := header_of_free tag hfound
  refine (receiverOk_iff _).mpr ⟨banksOk_one (st := .filling) hbanks hi (by decide) ?_ ?_ (fun j hj => ⟨?_, ?_⟩) ?_, ?_, ?_⟩
  · rw [header_same h tag hfound]
    exact hbanks.codes i
  · rw [header_same h tag hfound]
  · rw [header_other h tag hfound hj, freedFrom_wf]
    exact hbanks.codes j
  · intro st' hne
    rw [header_other h tag hfound hj, freedFrom_state_eq _ hne]
    simp
  · rw [hheader]
    simp
  · rw [hheader]
    simp
  · rw [hheader]
    simp

theorem frameFreed_ok {i : Fin 3} (h : ReceiverOk r) (hs : r.state = .receiving) (hi : r.banks[i].state = .filling) :
    ReceiverOk (frameFreed r i) := by
  obtain ⟨hbanks, hloss, hlines⟩ := (receiverOk_iff r).mp h
  refine (receiverOk_iff _).mpr ⟨banksOk_freed (st := .filling) hbanks (fun j => ?_) (by decide) (by simp [frameFreed]),
    ⟨hloss.1, fun _ => hloss.2 (by rw [hs]; decide)⟩, hlines⟩
  by_cases hj : j = i
  · subst hj
    exact (updBank_same ..).trans (by rw [freedFrom, if_pos hi, FrameBank.become])
  · exact (updBank_other _ _ hj).trans
      (freedFrom_of_ne fun hf => hj (hbanks.sole .filling (by decide) j i hf hi)).symm

theorem frameKept_ok {i : Fin 3} (h : ReceiverOk r) (hs : r.state = .receiving) (hi : r.banks[i].state = .filling) :
    ReceiverOk (frameKept r i) := by
  obtain ⟨hbanks, hloss, hlines⟩ := (receiverOk_iff r).mp h
  refine (receiverOk_iff _).mpr ⟨banksOk_one (st := .ready) hbanks (.inr hi) (by decide) ?_ ?_ (fun j hj => ⟨?_, ?_⟩) ?_,
    ?_, ?_⟩
  · rw [frameKept_same h]
    exact hbanks.codes i
  · rw [frameKept_same h]
  · rw [frameKept_other h hj, freedFrom_wf]
    exact hbanks.codes j
  · intro st' hne
    rw [frameKept_other h hj, freedFrom_state_eq _ hne]
    refine and_congr_right fun hst => ⟨fun hr => ⟨?_, hr⟩, And.right⟩
    rintro rfl
    exact hj (hbanks.sole .filling (by decide) j i hst hi)
  · simp [frameKept]
  · rw [frameKept_lossCount]
    exact ⟨hloss.1, fun _ => hloss.2 (by rw [hs]; decide)⟩
  · rw [frameKept_lineCount]
    exact hlines

/-- The FILLING bank with a line written, counted as line `n` (R121). -/
def lineWritten (width height n : Nat) (ps : List Pixel) (b : FrameBank) : FrameBank :=
  { (if n ≤ height then b.writeRow (n - 1) (ps.take width) else b) with
    malformed := b.malformed || decide (ps.length ≠ width) }

theorem lineWritten_state (width height n : Nat) (ps : List Pixel) (b : FrameBank) :
    (lineWritten width height n ps b).state = b.state := by
  unfold lineWritten
  split <;> rfl

theorem lineWritten_wf (width height n : Nat) (ps : List Pixel) {b : FrameBank} (h : b.wf = true) :
    (lineWritten width height n ps b).wf = true := by
  unfold lineWritten
  split
  · exact FrameBank.wf_writeRow b _ _ h
  · exact h

theorem line_ignored (width height : Nat) (ps : List Pixel) (h : r.state ≠ .receiving) : r.line width height ps = r :=
  if_neg h

theorem line_of_filling {i : Fin 3} (width height : Nat) (ps : List Pixel) (hs : r.state = .receiving)
    (hi : r.bankIn .filling = some i) : r.line width height ps =
      { r.updBank i (lineWritten width height (min 65535 (r.lineCount + 1)) ps) with
        lineCount := min 65535 (r.lineCount + 1) } := by
  simp only [Receiver.line, if_pos hs, hi]
  rfl

theorem line_ok (width height : Nat) (ps : List Pixel) (h : ReceiverOk r) : ReceiverOk (r.line width height ps) := by
  by_cases hs : r.state = .receiving
  swap
  · rw [line_ignored _ _ _ hs]
    exact h
  obtain ⟨hbanks, hloss, -⟩ := (receiverOk_iff r).mp h
  obtain ⟨i, hi⟩ := hbanks.filling.mpr hs
  rw [line_of_filling _ _ _ hs (bankIn_eq_of_soleIn (soleIn_filling h) hi)]
  have hbank (j : Fin 3) : (r.updBank i (lineWritten width height (min 65535 (r.lineCount + 1)) ps)).banks[j] =
      if j = i then lineWritten width height (min 65535 (r.lineCount + 1)) ps r.banks[j] else r.banks[j] := by
    split
    · subst j
      exact updBank_same ..
    · exact updBank_other _ _ ‹_›
  have hstate (j : Fin 3) :
      ((r.updBank i (lineWritten width height (min 65535 (r.lineCount + 1)) ps)).banks[j]).state = r.banks[j].state := by
    rw [hbank]
    split
    · exact lineWritten_state ..
    · rfl
  refine (receiverOk_iff _).mpr ⟨⟨?_, fun st hne j k hj hk => ?_, ?_, fun j => ?_⟩, hloss, Nat.min_le_left _ _⟩
  · obtain ⟨j, hj⟩ := hbanks.shown
    exact ⟨j, (hstate j).trans hj⟩
  · exact hbanks.sole st hne j k ((hstate j).symm.trans hj) ((hstate k).symm.trans hk)
  · exact Iff.trans (exists_congr fun j => by rw [← hstate j]) hbanks.filling
  · refine (congrArg FrameBank.wf (hbank j)).trans ?_
    split
    · exact lineWritten_wf _ _ _ _ (hbanks.codes j)
    · exact hbanks.codes j

end Stream

/-! #### The three actions of a frame start -/

section Acts

variable {t : Told} {g : Turning}

/-- The loss count step declares a loss (R124). -/
def Declares (t : Told) (r : Receiver) : Prop :=
  r.state ≠ .lost ∧ ¬ (t.header = true ∨ r.lossCount + 1 < t.lossLimit)

theorem lossStep_lost (h : g.receiver.state = .lost) : g.lossStep t = g := if_pos h

theorem lossStep_counts (h : g.receiver.state ≠ .lost) (hd : ¬ Declares t g.receiver) :
    g.lossStep t = { g with receiver := { g.receiver with lossCount := g.receiver.lossCount + 1 } } := by
  have hbelow : t.header = true ∨ g.receiver.lossCount + 1 < t.lossLimit := by
    by_contra hn
    exact hd ⟨h, hn⟩
  rw [Turning.lossStep, if_neg h, if_pos hbelow]

theorem lossStep_declares (h : Declares t g.receiver) : g.lossStep t = { g with
    receiver := { g.receiver.freeBankIn .filling with state := .lost, lossCount := g.receiver.lossCount + 1 }
    lost := some ((g.receiver.bankIn .filling).map fun i => g.receiver.banks[i].tag,
      (g.receiver.bankIn .ready).isSome) } := by
  rw [Turning.lossStep, if_neg h.1, if_neg h.2]

/-- A promotion is asked, and finds a READY bank. -/
def Promotes (t : Told) (r : Receiver) : Prop := t.promote = true ∧ ∃ i : Fin 3, r.banks[i].state = .ready

theorem promoteStep_of_not (h : ¬ Promotes t g.receiver) : g.promoteStep t = g := by
  unfold Turning.promoteStep
  split
  · rename_i hp
    cases hr : g.receiver.bankIn .ready with
    | none => rfl
    | some i => exact absurd ⟨hp, i, (Receiver.bankIn_some hr).1⟩ h
  · rfl

theorem promoteStep_of_ready {i : Fin 3} (hp : t.promote = true) (hi : g.receiver.bankIn .ready = some i) :
    g.promoteStep t = { g with
      receiver := (g.receiver.freeBankIn .shown).updBank i (FrameBank.become .shown)
      tag := some g.receiver.banks[i].tag } := by
  simp only [Turning.promoteStep, if_pos hp, hi]

theorem promoted_bank {r : Receiver} (h : BanksOk r) {i : Fin 3} (hi : r.banks[i].state = .ready) (j : Fin 3) :
    ((r.freeBankIn .shown).updBank i (FrameBank.become .shown)).banks[j] = promotedBank r.banks[j] := by
  have hfree := freeBankIn_bank (h.sole .shown (by decide)) j
  by_cases hj : j = i
  · subst hj
    rw [updBank_same, hfree]
    simp only [freedFrom, FrameBank.become, promotedBank, hi]
  · rw [updBank_other _ _ hj, hfree]
    have hnot : r.banks[j].state ≠ .ready := fun hr => hj (h.sole .ready (by decide) j i hr hi)
    generalize r.banks[j] = b at hnot
    obtain ⟨state, tag, malformed, rows⟩ := b
    cases state <;> simp_all [freedFrom, promotedBank]

theorem rasterStep_of_not (h : t.raster = false) : g.rasterStep t = g := by simp [Turning.rasterStep, h]

theorem rasterStep_of_raster (h : t.raster = true) : g.rasterStep t = { g with
    receiver := { ((g.receiver.freeBankIn .filling).freeBankIn .ready).clearShown with
      state := if g.receiver.state = .receiving then .idle else g.receiver.state }
    truncated := (g.receiver.bankIn .filling).isSome
    replaced := (g.receiver.bankIn .ready).isSome } := by
  rw [Turning.rasterStep, if_pos h]

theorem clearShown_bank {r : Receiver} (h : SoleIn r .shown) (j : Fin 3) :
    r.clearShown.banks[j] = if r.banks[j].state = .shown then FrameBank.cleared else r.banks[j] := by
  unfold Receiver.clearShown
  cases hfound : r.bankIn .shown with
  | none => rw [if_neg (Receiver.bankIn_none hfound j)]
  | some i =>
    have hi := (Receiver.bankIn_some hfound).1
    by_cases hj : j = i
    · subst hj
      rw [if_pos hi]
      exact updBank_same ..
    · rw [if_neg fun hs => hj (h j i hs hi)]
      exact updBank_other _ _ hj

theorem raster_bank {r : Receiver} (h : BanksOk r) (j : Fin 3) :
    ((r.freeBankIn .filling).freeBankIn .ready).clearShown.banks[j] = rasterBank r.banks[j] := by
  have hfilling (k : Fin 3) := freeBankIn_bank (h.sole .filling (by decide)) k
  have hsole (st : BankState) (hst : st ≠ .free) : SoleIn (r.freeBankIn .filling) st := fun a b ha hb => by
    rw [hfilling, freedFrom_state_eq _ hst] at ha hb
    exact h.sole st hst a b ha.1 hb.1
  have hready (k : Fin 3) := freeBankIn_bank (hsole .ready (by decide)) k
  have hshown : SoleIn ((r.freeBankIn .filling).freeBankIn .ready) .shown := fun a b ha hb => by
    rw [hready, freedFrom_state_eq _ (by decide)] at ha hb
    exact hsole .shown (by decide) a b ha.1 hb.1
  rw [clearShown_bank hshown, hready, hfilling]
  generalize r.banks[j] = b
  obtain ⟨state, tag, malformed, rows⟩ := b
  cases state <;> simp [freedFrom, rasterBank]

theorem updBank_eq (r : Receiver) (i : Fin 3) (f : FrameBank → FrameBank) :
    r.updBank i f = { r with banks := (r.updBank i f).banks } := rfl

theorem clearShown_eq (r : Receiver) : r.clearShown = { r with banks := r.clearShown.banks } := by
  unfold Receiver.clearShown
  split <;> rfl

end Acts

end Sys2Proof.Proofs

/-! ### The receivers stay sound (R116, R117, R119, R124) -/
namespace Sys2Proof.Proofs

open Sys2Proof.Machine

section Turn

variable {t : Told} {g : Turning}

theorem promoteStep_lossCount (t : Told) (g : Turning) :
    (g.promoteStep t).receiver.lossCount = g.receiver.lossCount := by
  by_cases h : Promotes t g.receiver
  · obtain ⟨i, hi⟩ := Option.isSome_iff_exists.mp ((Receiver.bankIn_isSome _ _).mpr h.2)
    rw [promoteStep_of_ready h.1 hi, updBank_eq, Receiver.freeBankIn_eq]
  · rw [promoteStep_of_not h]

theorem promoteStep_ok (h : ReceiverOk g.receiver) : ReceiverOk (g.promoteStep t).receiver := by
  by_cases hp : Promotes t g.receiver
  swap
  · rw [promoteStep_of_not hp]
    exact h
  obtain ⟨hbanks, hloss, hlines⟩ := (receiverOk_iff _).mp h
  obtain ⟨i, hi⟩ := Option.isSome_iff_exists.mp ((Receiver.bankIn_isSome _ _).mpr hp.2)
  rw [promoteStep_of_ready hp.1 hi]
  refine (receiverOk_iff _).mpr ⟨banksOk_promoted hbanks hp.2 (promoted_bank hbanks (Receiver.bankIn_some hi).1) ?_, ?_, ?_⟩
  · rw [updBank_eq, Receiver.freeBankIn_eq]
  · rw [updBank_eq, Receiver.freeBankIn_eq]
    exact hloss
  · rw [updBank_eq, Receiver.freeBankIn_eq]
    exact hlines

theorem rasterStep_lossCount (t : Told) (g : Turning) :
    (g.rasterStep t).receiver.lossCount = g.receiver.lossCount := by
  cases h : t.raster with
  | true =>
    rw [rasterStep_of_raster h]
    dsimp only
    rw [clearShown_eq, Receiver.freeBankIn_eq, Receiver.freeBankIn_eq]
  | false => rw [rasterStep_of_not h]

theorem rasterStep_ok (h : ReceiverOk g.receiver) : ReceiverOk (g.rasterStep t).receiver := by
  cases ht : t.raster with
  | false =>
    rw [rasterStep_of_not ht]
    exact h
  | true =>
    obtain ⟨hbanks, hloss, hlines⟩ := (receiverOk_iff _).mp h
    rw [rasterStep_of_raster ht]
    refine (receiverOk_iff _).mpr ⟨banksOk_raster hbanks (raster_bank hbanks) ?_, ?_, ?_⟩
    · dsimp only
      split
      · decide
      · assumption
    · rw [clearShown_eq, Receiver.freeBankIn_eq, Receiver.freeBankIn_eq]
      refine ⟨hloss.1, fun hne => hloss.2 fun hlost => hne ?_⟩
      dsimp only
      rw [if_neg (by rw [hlost]; decide)]
      exact hlost
    · rw [clearShown_eq, Receiver.freeBankIn_eq, Receiver.freeBankIn_eq]
      exact hlines

/-- The loss step comes to a count it has not stepped yet: a fresh header has left it at 0. -/
theorem lossStep_ok (h : ReceiverOk g.receiver) (hheader : t.header = true → g.receiver.lossCount = 0)
    (hlimit : t.lossLimit ≤ 15) : ReceiverOk (g.lossStep t).receiver := by
  by_cases hlost : g.receiver.state = .lost
  · rw [lossStep_lost hlost]
    exact h
  obtain ⟨hbanks, hloss, hlines⟩ := (receiverOk_iff _).mp h
  have hcount := hloss.2 hlost
  by_cases hd : Declares t g.receiver
  · rw [lossStep_declares hd]
    refine (receiverOk_iff _).mpr ⟨banksOk_freed (st := .filling) hbanks (freeBankIn_bank (hbanks.sole _ (by decide)))
      (by decide) (by simp), ⟨by dsimp only; omega, fun hne => absurd rfl hne⟩, ?_⟩
    rw [Receiver.freeBankIn_eq]
    exact hlines
  · rw [lossStep_counts hlost hd]
    refine (receiverOk_iff _).mpr ⟨⟨hbanks.shown, hbanks.sole, hbanks.filling, hbanks.codes⟩, ?_, hlines⟩
    have hbelow : t.header = true ∨ g.receiver.lossCount + 1 < t.lossLimit := by
      by_contra hn
      exact hd ⟨hlost, hn⟩
    have hfew : g.receiver.lossCount + 1 ≤ 14 := by
      rcases hbelow with hh | hlt
      · rw [hheader hh]; decide
      · omega
    exact ⟨hfew.trans (by decide), fun _ => hfew⟩

/-- A receiver's whole part in a frame start keeps it sound. -/
theorem turn_ok {r : Receiver} (o : ReceiverOrder) (h : ReceiverOk r) (hheader : t.header = true → r.lossCount = 0)
    (hlimit : t.lossLimit ≤ 15) : ReceiverOk (r.turn o t).receiver := by
  cases o <;> simp only [Receiver.turn, orderActs, List.foldl_cons, List.foldl_nil, Turning.act]
  case lossPromoteRaster => exact rasterStep_ok (promoteStep_ok (lossStep_ok h hheader hlimit))
  case lossRasterPromote => exact promoteStep_ok (rasterStep_ok (lossStep_ok h hheader hlimit))
  case promoteLossRaster =>
    refine rasterStep_ok (lossStep_ok (promoteStep_ok h) (fun hh => ?_) hlimit)
    rw [promoteStep_lossCount]
    exact hheader hh
  case promoteRasterLoss =>
    refine lossStep_ok (rasterStep_ok (promoteStep_ok h)) (fun hh => ?_) hlimit
    rw [rasterStep_lossCount, promoteStep_lossCount]
    exact hheader hh
  case rasterLossPromote =>
    refine promoteStep_ok (lossStep_ok (rasterStep_ok h) (fun hh => ?_) hlimit)
    rw [rasterStep_lossCount]
    exact hheader hh
  case rasterPromoteLoss =>
    refine lossStep_ok (promoteStep_ok (rasterStep_ok h)) (fun hh => ?_) hlimit
    rw [promoteStep_lossCount, rasterStep_lossCount]
    exact hheader hh

end Turn

theorem resetBanks_ok (r : Receiver) (h : ∀ i : Fin 3, r.banks[i].wf = true) : ReceiverOk r.resetBanks := by
  have hbank (i : Fin 3) : r.resetBanks.banks[i] =
      if i = 0 then FrameBank.cleared else { r.banks[i] with state := .free, tag := 0, malformed := false } := by
    simp [Receiver.resetBanks]
  have hstate (i : Fin 3) : r.resetBanks.banks[i].state = if i = 0 then .shown else .free := by
    rw [hbank]
    split <;> rfl
  refine (receiverOk_iff _).mpr ⟨⟨⟨0, hstate 0⟩, fun st hne i j hi hj => ?_, iff_of_false ?_ (by simp [Receiver.resetBanks]),
    fun i => ?_⟩, by simp [Receiver.resetBanks], by simp [Receiver.resetBanks]⟩
  · rw [hstate] at hi hj
    by_cases h0 : i = 0 <;> by_cases h1 : j = 0
    · exact h0.trans h1.symm
    · rw [if_neg h1] at hj; exact absurd hj.symm hne
    · rw [if_neg h0] at hi; exact absurd hi.symm hne
    · rw [if_neg h0] at hi; exact absurd hi.symm hne
  · rintro ⟨i, hi⟩
    rw [hstate] at hi
    split at hi <;> cases hi
  · rw [hbank]
    split
    · exact cleared_wf
    · exact h i

end Sys2Proof.Proofs

/-! ### The receivers and the barrier stay in range (R116, R117, R119, R134) -/
namespace Sys2Proof.Proofs

open Sys2Proof.Machine

/-- What the barrier holds for a channel lies in its range; a stalled channel is enrolled (R134). -/
def ChannelInRange (b : BarrierChannel) : Prop := b.lateCount ≤ 15 ∧ (b.stalled = true → b.enrolled = true)

/-- The settings and counters of the barrier lie in their ranges (R134). -/
structure BarrierInRange (b : Barrier) : Prop where
  channels : ∀ c : Channel, ChannelInRange (b.channels[c])
  reload : 1 ≤ b.reload ∧ b.reload ≤ 4
  cadence : b.cadence ≤ 3
  wait : b.waitCount ≤ 65535
  limits : b.timeout ≤ 255 ∧ b.stallLimit ≤ 15 ∧ 1 ≤ b.lossLimit ∧ b.lossLimit ≤ 15

theorem framesSound_iff (s : State) :
    FramesSound s ↔ (∀ c : Channel, ReceiverOk s.receivers[c]) ∧ BarrierInRange s.barrier :=
  ⟨fun h => ⟨h.receivers, fun c => ⟨h.late c, h.stalled c⟩, h.reload, h.cadence, h.wait, h.limits⟩,
    fun ⟨hr, hb⟩ => ⟨hr, fun c => (hb.channels c).1, fun c => (hb.channels c).2, hb.reload, hb.cadence, hb.wait, hb.limits⟩⟩

theorem framesSound_congr {s t : State} (h : FramesSound s) (hr : t.receivers = s.receivers) (hb : t.barrier = s.barrier) :
    FramesSound t := by
  rw [framesSound_iff] at h ⊢
  rw [hr, hb]
  exact h

section Barrier

variable {s t : State} {i : Instr}

theorem channelAfter_inRange (d : Decision) (tag : Option Word32) {c : Channel}
    (h : ChannelInRange (s.barrier.channels[c])) : ChannelInRange (channelAfter d s tag c) := by
  unfold channelAfter
  dsimp only
  split
  · rename_i henrolled
    split
    · exact ⟨Nat.zero_le _, fun _ => henrolled⟩
    split
    · exact ⟨Nat.min_le_left _ _, fun _ => henrolled⟩
    · exact h
  · split <;> exact h

theorem barrierAfter_inRange (d : Decision) (turns : Vector Turning 12) (h : BarrierInRange s.barrier) :
    BarrierInRange (barrierAfter d turns s) where
  channels c := by
    simpa [barrierAfter] using channelAfter_inRange d turns[c].tag (h.channels c)
  reload := h.reload
  cadence := by
    have hreload := h.reload
    have hcadence := h.cadence
    simp only [barrierAfter, cadenceAfter]
    split <;> omega
  wait := by
    cases d with
    | notEligible => exact h.wait
    | hold => exact Nat.min_le_left _ _
    | _ => exact Nat.zero_le _
  limits := h.limits

theorem updNamed_inRange (m : Nat) {f : BarrierChannel → BarrierChannel} (hf : ∀ b, ChannelInRange b → ChannelInRange (f b))
    (h : BarrierInRange s.barrier) : BarrierInRange (updNamed m f s).barrier := by
  refine ⟨fun c => ?_, h.reload, h.cadence, h.wait, h.limits⟩
  have hc : (updNamed m f s).barrier.channels[c] =
      if maskNames m c then f s.barrier.channels[c] else s.barrier.channels[c] := by simp [updNamed]
  rw [hc]
  split
  · exact hf _ (h.channels c)
  · exact h.channels c

theorem enroll_inRange (b : BarrierChannel) (h : ChannelInRange b) : ChannelInRange b.enroll := by
  unfold BarrierChannel.enroll
  split
  · exact h
  · exact ⟨Nat.zero_le _, fun _ => rfl⟩

theorem withdraw_inRange (b : BarrierChannel) (h : ChannelInRange b) : ChannelInRange b.withdraw := by
  unfold BarrierChannel.withdraw
  split
  · exact ⟨Nat.zero_le _, fun hs => absurd hs Bool.false_ne_true⟩
  · exact h

/-- The values of a SET_BARRIER that passes its checks (R155). -/
theorem checkSetBarrier_ok {l : Link} {p : List Byte} {f : BarrierFields} (h : checkSetBarrier l p = .ok f) :
    (f.timeout = if bitAt p 0 0 then some (min 255 (u16 p 1)) else none) ∧
      (f.stallLimit = if bitAt p 0 1 then some (min 15 (u8 p 3)) else none) ∧
      (f.lossLimit = if bitAt p 0 2 then some (min 15 (u8 p 4)) else none) ∧ (bitAt p 0 2 = true → u8 p 4 ≠ 0) := by
  unfold checkSetBarrier at h
  dsimp only at h
  split at h
  · cases h
  split at h
  · cases h
  split at h
  · cases h
  split at h
  · cases h
  rename_i hloss
  have hpos : bitAt p 0 2 = true → u8 p 4 ≠ 0 := fun hb h0 => hloss ⟨hb, h0⟩
  split at h
  · split at h
    · cases h
    split at h
    · cases h
    cases h
    exact ⟨rfl, rfl, rfl, hpos⟩
  · cases h
    exact ⟨rfl, rfl, rfl, hpos⟩

/-- A channel after SET_BARRIER: its policy where the mask names it, its late count 0 (R155). -/
theorem setFields_channel (b : Barrier) (f : BarrierFields) (c : Channel) :
    (b.setFields f).channels[c] = { b.channels[c] with
      lateCount := 0
      policy := match f.policy with
        | none => (b.channels[c]).policy
        | some (m, pol) => if maskNames m c then pol else (b.channels[c]).policy } := by
  obtain ⟨timeout, stallLimit, lossLimit, policy, clamped⟩ := f
  simp only [Barrier.setFields, Fin.getElem_fin, getElem_updAll]
  cases policy with
  | none => rfl
  | some mp =>
    dsimp only
    split <;> rfl

theorem setFields_inRange {l : Link} {p : List Byte} {f : BarrierFields} (hf : checkSetBarrier l p = .ok f) {b : Barrier}
    (h : BarrierInRange b) : BarrierInRange (b.setFields f) := by
  obtain ⟨htimeout, hstall, hloss, hpos⟩ := checkSetBarrier_ok hf
  refine ⟨fun c => ⟨?_, ?_⟩, h.reload, h.cadence, h.wait, ?_⟩
  · rw [setFields_channel]
    exact Nat.zero_le _
  · rw [setFields_channel]
    exact (h.channels c).2
  · have hlimits := h.limits
    simp only [Barrier.setFields, htimeout, hstall, hloss]
    refine ⟨?_, ?_, ?_, ?_⟩
    · split <;> simp only [Option.getD_some, Option.getD_none] <;> omega
    · split <;> simp only [Option.getD_some, Option.getD_none] <;> omega
    · split
      · have := hpos ‹_›
        simp only [Option.getD_some]
        omega
      · exact hlimits.2.2.1
    · split <;> simp only [Option.getD_some, Option.getD_none] <;> omega

theorem checkSetCadence_ok {l : Link} {p : List Byte} {k : Nat} (h : checkSetCadence l p = .ok k) : 1 ≤ k ∧ k ≤ 4 := by
  unfold checkSetCadence at h
  split at h
  · cases h
  split at h
  · cases h
  split at h
  · cases h
  cases h
  omega

theorem barrierReset_inRange : BarrierInRange Barrier.reset := by
  refine ⟨fun c => ?_, by decide, by decide, by decide, by decide⟩
  simp [Barrier.reset, ChannelInRange, BarrierChannel.reset]

end Barrier

section Frames

variable {s t : State} {i : Instr}

theorem resetAll_ok (h : ∀ c : Channel, ReceiverOk s.receivers[c]) (c : Channel) :
    ReceiverOk (updAll s.receivers fun _ r => r.resetBanks)[c] := by
  simpa using resetBanks_ok _ (h c).codes

theorem frameStart_framesSound (race : FrameRace) (h : FramesSound s) : FramesSound (frameStart race s) := by
  obtain ⟨hreceivers, hbarrier⟩ := (framesSound_iff s).mp h
  refine (framesSound_iff _).mpr ⟨fun c => ?_, ?_⟩
  · rw [frameStart_receivers]
    have hturn : (receiverTurns race (decision s) s)[c] =
        s.receivers[c].turn race.receivers[c] (toldTo race (decision s) s c) := by simp [receiverTurns]
    rw [hturn]
    refine turn_ok _ (hreceivers c) (fun hheader => ?_) hbarrier.limits.2.2.2
    exact ((headerTogether_iff s race c).mp hheader).2.2.1
  · rw [frameStart_barrier]
    exact barrierAfter_inRange _ _ hbarrier

theorem put_receiver {c : Channel} {r : Receiver} (h : ∀ c : Channel, ReceiverOk s.receivers[c]) (hr : ReceiverOk r)
    (c' : Channel) : ReceiverOk (put s.receivers c r)[c'] := by
  by_cases hc : c = c'
  · subst hc
    simpa using hr
  · simpa [Fin.val_ne_of_ne hc] using h c'

theorem rejoin_inRange (c : Channel) (tag : Word32) (h : BarrierInRange s.barrier) :
    BarrierInRange (rejoin c tag s).barrier := by
  rw [rejoin_of_barrier c tag rfl]
  split
  swap
  · exact h
  rw [handAll_barrier]
  refine ⟨fun c' => ?_, h.reload, h.cadence, h.wait, h.limits⟩
  by_cases hc : c = c'
  · subst hc
    simp [ChannelInRange]
  · simpa [Fin.val_ne_of_ne hc] using h.channels c'

theorem takeFrameEnd_framesSound (c : Channel) (h : FramesSound s) : FramesSound (takeFrameEnd c s) := by
  by_cases hs : s.receivers[c].state = .receiving
  swap
  · rw [takeFrameEnd_ignored hs]
    exact h
  obtain ⟨hreceivers, hbarrier⟩ := (framesSound_iff s).mp h
  obtain ⟨i, hi⟩ := ((receiverOk_iff _).mp (hreceivers c)).1.filling.mpr hs
  rw [takeFrameEnd_judges (hreceivers c) hs hi]
  by_cases hbad : s.receivers[c].badFrame i (s.tables.active.records[c]).height = true
  · rw [judgeFrame_bad hbad]
    exact (framesSound_iff _).mpr ⟨put_receiver hreceivers (frameFreed_ok (hreceivers c) hs hi), hbarrier⟩
  · rw [judgeFrame_good hbad]
    refine (framesSound_iff _).mpr ⟨?_, rejoin_inRange c _ ?_⟩
    · rw [rejoin_receivers, frameCounted_receivers]
      exact put_receiver hreceivers (frameKept_ok (hreceivers c) hs hi)
    · rw [frameCounted_barrier]
      exact hbarrier

theorem edited_framesSound {p : List Byte} (he : Edited p s i t) (h : FramesSound s) : FramesSound t := by
  obtain ⟨hreceivers, hbarrier⟩ := (framesSound_iff s).mp h
  cases he with
  | enrolls => exact (framesSound_iff _).mpr ⟨hreceivers, updNamed_inRange _ enroll_inRange hbarrier⟩
  | withdraws => exact (framesSound_iff _).mpr ⟨hreceivers, updNamed_inRange _ withdraw_inRange hbarrier⟩
  | barrier hf => exact (framesSound_iff _).mpr ⟨hreceivers, setFields_inRange hf hbarrier⟩
  | cadence hk =>
    exact (framesSound_iff _).mpr ⟨hreceivers, hbarrier.channels, checkSetCadence_ok hk, hbarrier.cadence, hbarrier.wait,
      hbarrier.limits⟩
  | _ => exact framesSound_congr h rfl rfl

theorem carried_framesSound {m : Message} (hc : Carried m s i t) (h : FramesSound s) : FramesSound t := by
  cases hc with
  | answers => exact framesSound_congr h rfl rfl
  | presents => exact framesSound_congr h rfl rfl
  | accepts _ he => exact framesSound_congr (edited_framesSound he h) rfl rfl
  | aborts =>
    rw [abortAnswered_frame]
    exact framesSound_congr h rfl rfl
  | timing =>
    rw [timingSet_frame]
    exact framesSound_congr h rfl rfl
  | timingStarts _ _ ho =>
    rw [takeStart_timingSet s ho, timingSet_frame]
    exact frameStart_framesSound _ (framesSound_congr h rfl rfl)
  | restarts =>
    rw [restart_frame]
    exact (framesSound_iff _).mpr ⟨resetAll_ok h.receivers, barrierReset_inRange⟩

theorem moves_framesSound (hm : Moves s i t) (h : FramesSound s) : FramesSound t := by
  obtain ⟨hreceivers, hbarrier⟩ := (framesSound_iff s).mp h
  cases hm with
  | request _ _ _ hc => exact carried_framesSound hc h
  | starts => exact frameStart_framesSound _ (framesSound_congr h rfl rfl)
  | header c tag =>
    rw [takeHeader_frame]
    exact (framesSound_iff _).mpr ⟨put_receiver hreceivers (header_ok tag (hreceivers c)), hbarrier⟩
  | line c ps => exact (framesSound_iff _).mpr ⟨put_receiver hreceivers (line_ok _ _ ps (hreceivers c)), hbarrier⟩
  | frameEnd c => exact takeFrameEnd_framesSound c h
  | resets => exact (framesSound_iff _).mpr ⟨resetAll_ok hreceivers, barrierReset_inRange⟩
  | stays => exact h
  | turn => rw [takeTurn_frame]; exact framesSound_congr h rfl rfl
  | applying => exact framesSound_congr h rfl rfl
  | checking => rw [finishChecking_frame]; exact framesSound_congr h rfl rfl
  | normalizing => rw [finishNormalizing_frame]; exact framesSound_congr h rfl rfl
  | flooring => exact framesSound_congr h rfl rfl
  | lifting => rw [finishLifting_frame]; exact framesSound_congr h rfl rfl
  | pixel => rw [deliverPixel_frame]; exact framesSound_congr h rfl rfl
  | edge => rw [notifyTiming_frame]; exact framesSound_congr h rfl rfl
  | holdover => rw [notifyTiming_frame]; exact framesSound_congr h rfl rfl
  | byte => rw [takeByte_frame]; exact framesSound_congr h rfl rfl
  | gap => rw [takeGap_frame]; exact framesSound_congr h rfl rfl
  | breaks => rw [takeBreak_frame]; exact framesSound_congr h rfl rfl
  | breakEnds => exact framesSound_congr h rfl rfl
  | transmits => exact framesSound_congr h rfl rfl

end Frames

end Sys2Proof.Proofs

/-! ### The timing and the fade stay in range (R160 to R168, R170, R173, R174) -/
namespace Sys2Proof.Proofs

open Sys2Proof.Machine

/-- The timing lies in its ranges (R160, R165, R170). -/
structure TimingInRange (t : Timing) : Prop where
  source : t.source = .internal ↔ t.state = .free
  edge : t.source = .internal → t.lastEdge = none
  rate : 24 ≤ t.rate ∧ t.rate ≤ 144
  period : Config.minInterval ≤ t.period ∧ t.period ≤ Config.maxInterval
  listed : t.intervals ≠ [] → t.state = .acquire
  intervals : t.intervals.length ≤ 4 ∧ ∀ i ∈ t.intervals, Config.minInterval ≤ i ∧ i ≤ Config.maxInterval
  locked : t.state = .locked → t.lastEdge.isSome = true
  substituted : t.substituted = true → t.state = .locked
  raster : 640 ≤ t.width ∧ t.width ≤ 2560 ∧ 480 ≤ t.height ∧ t.height ≤ 1600

/-- The fade lies in its ranges (R173). -/
def FadeInRange (f : Fade) : Prop := f.level ≤ 4096 ∧ f.target ≤ 4096 ∧ f.remaining ≤ 4095

theorem timingSound_iff (s : State) : TimingSound s ↔ TimingInRange s.timing ∧ FadeInRange s.fade :=
  ⟨fun h => ⟨⟨h.source, h.edge, h.rate, h.period, h.listed, h.intervals, h.locked, h.substituted, h.raster⟩, h.fade⟩,
    fun ⟨h, hf⟩ => ⟨h.source, h.edge, h.rate, h.period, h.listed, h.intervals, h.locked, h.substituted, h.raster, hf⟩⟩

theorem timingSound_congr {s t : State} (h : TimingSound s) (ht : t.timing = s.timing) (hf : t.fade = s.fade) :
    TimingSound t := by
  rw [timingSound_iff] at h ⊢
  rw [ht, hf]
  exact h

/-! #### The fade -/

/-- A fade step stays between the level and the target (R174). -/
theorem fadeStep_level_le {f : Fade} {n : Nat} (hl : f.level ≤ n) (ht : f.target ≤ n) : f.step.level ≤ n := by
  unfold Fade.step
  split
  swap
  · exact ht
  dsimp only
  rcases Int.le_total f.level f.target with hup | hdown
  · have hstep : ((f.target : Int) - f.level).tdiv f.remaining ≤ f.target - f.level := by
      rw [Int.tdiv_eq_ediv_of_nonneg (by omega)]
      exact Int.ediv_le_self _ (by omega)
    omega
  · have hstep : ((f.target : Int) - f.level).tdiv f.remaining ≤ 0 := by
      rw [← Int.neg_sub, Int.neg_tdiv]
      have := Int.tdiv_nonneg (a := (f.level : Int) - f.target) (b := f.remaining) (by omega) (by omega)
      omega
    omega

theorem fadeStep_inRange {f : Fade} (h : FadeInRange f) : FadeInRange f.step := by
  refine ⟨fadeStep_level_le h.1 h.2.1, ?_, ?_⟩
  · unfold Fade.step
    split <;> exact h.2.1
  · have hremaining := h.2.2
    unfold Fade.step
    split
    · dsimp only
      omega
    · exact hremaining

theorem fadeReset_inRange : FadeInRange Fade.reset := by simp [FadeInRange, Fade.reset]

/-! #### The timing -/

section Timing

variable {t : Timing}

theorem periodTiming_inRange (h : TimingInRange t) : TimingInRange (periodTiming t) :=
  ⟨h.source, h.edge, h.rate, h.period, h.listed, h.intervals, h.locked, h.substituted, h.raster⟩

theorem ownTiming_inRange (h : TimingInRange t) : TimingInRange (ownTiming t) := by
  unfold ownTiming
  split
  · rename_i hstate _
    exact ⟨h.source, h.edge, h.rate, h.period, h.listed, h.intervals, h.locked, fun _ => hstate, h.raster⟩
  · exact periodTiming_inRange h

theorem edgeStartTiming_inRange (time : Nat) (hx : t.source = .external) (h : TimingInRange t) :
    TimingInRange (edgeStartTiming time t) :=
  ⟨h.source, fun hi => absurd (hx.symm.trans hi) (by decide), h.rate, h.period, h.listed, h.intervals, fun _ => rfl,
    fun hs => absurd hs Bool.false_ne_true, h.raster⟩

theorem startTiming_inRange {s : State} {i : Instr} {race : FrameRace} (hs : FrameStartTaken s i race)
    (h : TimingInRange s.timing) : TimingInRange (startTiming s.timing i) := by
  cases i with
  | refEdge time _ =>
    obtain ⟨-, -, hx, -⟩ := hs
    exact edgeStartTiming_inRange time hx h
  | _ => exact ownTiming_inRange h

theorem toAcquire_inRange {is : List Nat} (hx : t.source = .external) (h : TimingInRange t)
    (his : is.length ≤ 4 ∧ ∀ i ∈ is, Config.minInterval ≤ i ∧ i ≤ Config.maxInterval) :
    TimingInRange (t.toAcquire is) where
  source := iff_of_false (by simp [Timing.toAcquire, hx]) (by simp [Timing.toAcquire])
  edge := h.edge
  rate := h.rate
  period := h.period
  listed _ := rfl
  intervals := his
  locked hl := absurd hl (by simp [Timing.toAcquire])
  substituted hs := absurd hs Bool.false_ne_true
  raster := h.raster

/-- The mean of intervals in range is in range. -/
theorem mean_inRange {is : List Nat} (hl : is.length = 4)
    (h : ∀ i ∈ is, Config.minInterval ≤ i ∧ i ≤ Config.maxInterval) :
    Config.minInterval ≤ is.sum / 4 ∧ is.sum / 4 ≤ Config.maxInterval := by
  have hlow := List.card_nsmul_le_sum is Config.minInterval fun i hi => (h i hi).1
  have hhigh := List.sum_le_card_nsmul is Config.maxInterval fun i hi => (h i hi).2
  rw [hl, smul_eq_mul] at hlow hhigh
  omega

theorem appendInterval_inRange {i : Nat} (hi : Config.minInterval ≤ i ∧ i ≤ Config.maxInterval)
    (h : t.intervals.length ≤ 4 ∧ ∀ i ∈ t.intervals, Config.minInterval ≤ i ∧ i ≤ Config.maxInterval) :
    (appendInterval t.intervals i).length ≤ 4 ∧
      ∀ j ∈ appendInterval t.intervals i, Config.minInterval ≤ j ∧ j ≤ Config.maxInterval := by
  unfold appendInterval
  constructor
  · split
    · simp only [List.length_append, List.length_tail, List.length_singleton]
      omega
    · simp only [List.length_append, List.length_singleton]
      omega
  · intro j hj
    rcases List.mem_append.mp hj with hold | hnew
    · split at hold
      · exact h.2 j (List.mem_of_mem_tail hold)
      · exact h.2 j hold
    · rw [List.mem_singleton.mp hnew]
      exact hi

/-- An edge under EXTERNAL, the last REF edge already moved on (R164 to R168). -/
theorem edge_inRange (i : Nat) (hx : t.source = .external) (he : t.lastEdge.isSome = true) (h : TimingInRange t) :
    TimingInRange (t.edge i) := by
  have hfree : t.state ≠ .free := fun hf => absurd (hx.symm.trans (h.source.mpr hf)) (by decide)
  unfold Timing.edge
  cases hs : t.state with
  | free => exact absurd hs hfree
  | acquire =>
    dsimp only
    split
    · rename_i hin
      have happend := appendInterval_inRange (of_decide_eq_true hin) h.intervals
      unfold Timing.acquireInterval
      dsimp only
      split
      · rename_i hlock
        exact ⟨iff_of_false (by simp [hx]) (by simp), fun hi => absurd (hx.symm.trans hi) (by decide), h.rate,
          mean_inRange (of_decide_eq_true hlock).1 happend.2, fun hne => absurd rfl hne, by simp, fun _ => he,
          fun hsub => absurd hsub Bool.false_ne_true, h.raster⟩
      · exact ⟨hs ▸ h.source, h.edge, h.rate, h.period, fun _ => hs, happend, hs ▸ h.locked, hs ▸ h.substituted, h.raster⟩
    · exact ⟨hs ▸ h.source, h.edge, h.rate, h.period, fun hne => absurd rfl hne, by simp, hs ▸ h.locked,
        hs ▸ h.substituted, h.raster⟩
  | locked =>
    dsimp only
    split
    · rename_i hin
      split
      · exact ⟨hs ▸ h.source, h.edge, h.rate, h.period, hs ▸ h.listed, h.intervals, hs ▸ h.locked,
          fun hsub => absurd hsub Bool.false_ne_true, h.raster⟩
      · refine toAcquire_inRange hx h ⟨by simp, fun j hj => ?_⟩
        rw [List.mem_singleton.mp hj]
        exact of_decide_eq_true hin
    · exact toAcquire_inRange hx h (by simp)
  | holdover => exact toAcquire_inRange hx h (by simp)

theorem edgeTiming_inRange (time : Nat) {s : State} (hx : s.timing.source = .external) (h : TimingInRange s.timing) :
    TimingInRange (edgeTiming time s) := by
  have hmoved : TimingInRange
      { s.timing with lastEdge := some (max s.timing.clock time), clock := max s.timing.clock time } :=
    ⟨h.source, fun hi => absurd (hx.symm.trans hi) (by decide), h.rate, h.period, h.listed, h.intervals, fun _ => rfl,
      h.substituted, h.raster⟩
  unfold edgeTiming
  dsimp only
  split
  · exact hmoved
  · exact edge_inRange _ hx rfl hmoved

theorem holdoverTiming_inRange (e : Nat) (hl : t.state = .locked) (h : TimingInRange t) :
    TimingInRange (holdoverTiming e t) where
  source := iff_of_false (fun hi => absurd (hl.symm.trans (h.source.mp hi)) (by decide)) (by simp [holdoverTiming])
  edge := h.edge
  rate := h.rate
  period := h.period
  listed hne := absurd (hl.symm.trans (h.listed hne)) (by decide)
  intervals := h.intervals
  locked hh := absurd hh (by simp [holdoverTiming])
  substituted hs := absurd hs Bool.false_ne_true
  raster := h.raster

/-- The period of a rate in range is an interval in range (R162). -/
theorem period_inRange {rate : Nat} (hlow : 24 ≤ rate) (hhigh : rate ≤ 144) :
    Config.minInterval ≤ 1000000000 / rate ∧ 1000000000 / rate ≤ Config.maxInterval := by
  constructor
  · exact (by decide : Config.minInterval ≤ 1000000000 / 144).trans (Nat.div_le_div_left hhigh (by omega))
  · exact (Nat.div_le_div_left hlow (by decide)).trans (by decide)

theorem timingChosen_inRange {s : State} {l : Link} {p : List Byte} (taking : TimingTaking) {choice : TimingChoice}
    (hc : checkSetTiming l p = .ok choice) (h : TimingInRange s.timing) :
    TimingInRange (timingChosen taking choice s) := by
  obtain ⟨-, -, ⟨rfl, -⟩ | ⟨rfl, -, hlow, hhigh⟩⟩ := checkSetTiming_ok hc
  · exact ⟨iff_of_false (by simp [timingChosen, Timing.choose]) (by simp [timingChosen, Timing.choose]),
      fun hi => absurd hi (by simp [timingChosen, Timing.choose]), h.rate, h.period, fun hne => absurd rfl hne,
      by simp [timingChosen, Timing.choose], fun hl => absurd hl (by simp [timingChosen, Timing.choose]),
      fun hs => absurd hs Bool.false_ne_true, h.raster⟩
  · exact ⟨iff_of_true rfl rfl, fun _ => rfl, ⟨hlow, hhigh⟩, period_inRange hlow hhigh, fun hne => absurd rfl hne,
      by simp [timingChosen, Timing.choose], fun hl => absurd hl (by simp [timingChosen, Timing.choose]),
      fun hs => absurd hs Bool.false_ne_true, h.raster⟩

end Timing

section Steps

variable {s t : State} {i : Instr}

theorem frameStart_timingSound (race : FrameRace) (h : TimingSound s) : TimingSound (frameStart race s) := by
  obtain ⟨htiming, hfade⟩ := (timingSound_iff s).mp h
  refine (timingSound_iff _).mpr ⟨?_, ?_⟩
  · rw [frameStart_timing]
    exact ⟨htiming.source, htiming.edge, htiming.rate, htiming.period, htiming.listed, htiming.intervals, htiming.locked,
      htiming.substituted, htiming.raster⟩
  · rw [frameStart_fade]
    exact fadeStep_inRange hfade

theorem updOutputs_inRange (m : Nat) (f : OutputState → OutputState) {t : Timing} (h : TimingInRange t) :
    TimingInRange (t.updOutputs m f) :=
  ⟨h.source, h.edge, h.rate, h.period, h.listed, h.intervals, h.locked, h.substituted, h.raster⟩

theorem edited_timingSound {p : List Byte} (he : Edited p s i t) (h : TimingSound s) : TimingSound t := by
  obtain ⟨htiming, hfade⟩ := (timingSound_iff s).mp h
  cases he with
  | fades => exact (timingSound_iff _).mpr ⟨htiming, hfade.1, Nat.min_le_left _ _, Nat.min_le_left _ _⟩
  | outputsOn => exact (timingSound_iff _).mpr ⟨updOutputs_inRange _ _ htiming, hfade⟩
  | outputsOff => exact (timingSound_iff _).mpr ⟨updOutputs_inRange _ _ htiming, hfade⟩
  | raster hr =>
    exact (timingSound_iff _).mpr ⟨⟨htiming.source, htiming.edge, htiming.rate, htiming.period, htiming.listed,
      htiming.intervals, htiming.locked, htiming.substituted, by dsimp only; omega⟩, hfade⟩
  | _ => exact timingSound_congr h rfl rfl

theorem timingReset_inRange : TimingInRange Timing.reset := by
  constructor <;> simp [Timing.reset, Config.minInterval, Config.maxInterval]

theorem carried_timingSound {m : Message} (hc : Carried m s i t) (h : TimingSound s) : TimingSound t := by
  obtain ⟨htiming, hfade⟩ := (timingSound_iff s).mp h
  cases hc with
  | answers => exact timingSound_congr h rfl rfl
  | presents => exact timingSound_congr h rfl rfl
  | accepts _ he => exact timingSound_congr (edited_timingSound he h) rfl rfl
  | aborts =>
    rw [abortAnswered_frame]
    exact timingSound_congr h rfl rfl
  | timing _ hc =>
    rw [timingSet_frame]
    exact (timingSound_iff _).mpr ⟨timingChosen_inRange _ hc htiming, hfade⟩
  | timingStarts _ hc ho =>
    rw [takeStart_timingSet s ho, timingSet_frame]
    exact frameStart_timingSound _
      ((timingSound_iff _).mpr ⟨periodTiming_inRange (timingChosen_inRange _ hc htiming), hfade⟩)
  | restarts =>
    rw [restart_frame]
    exact (timingSound_iff _).mpr ⟨htiming, fadeReset_inRange⟩

theorem moves_timingSound (hm : Moves s i t) (h : TimingSound s) : TimingSound t := by
  obtain ⟨htiming, hfade⟩ := (timingSound_iff s).mp h
  cases hm with
  | request _ _ _ hc => exact carried_timingSound hc h
  | starts hs => exact frameStart_timingSound _ ((timingSound_iff _).mpr ⟨startTiming_inRange hs htiming, hfade⟩)
  | edge hx =>
    rw [notifyTiming_frame]
    exact (timingSound_iff _).mpr ⟨edgeTiming_inRange _ hx htiming, hfade⟩
  | holdover hl =>
    rw [notifyTiming_frame]
    exact (timingSound_iff _).mpr ⟨holdoverTiming_inRange _ hl htiming, hfade⟩
  | resets => exact (timingSound_iff _).mpr ⟨timingReset_inRange, fadeReset_inRange⟩
  | stays => exact h
  | turn => rw [takeTurn_frame]; exact timingSound_congr h rfl rfl
  | applying => exact timingSound_congr h rfl rfl
  | checking => rw [finishChecking_frame]; exact timingSound_congr h rfl rfl
  | normalizing => rw [finishNormalizing_frame]; exact timingSound_congr h rfl rfl
  | flooring => exact timingSound_congr h rfl rfl
  | lifting => rw [finishLifting_frame]; exact timingSound_congr h rfl rfl
  | pixel => rw [deliverPixel_frame]; exact timingSound_congr h rfl rfl
  | header => rw [takeHeader_frame]; exact timingSound_congr h rfl rfl
  | line => exact timingSound_congr h rfl rfl
  | frameEnd => rw [takeFrameEnd_frame]; exact timingSound_congr h rfl rfl
  | byte => rw [takeByte_frame]; exact timingSound_congr h rfl rfl
  | gap => rw [takeGap_frame]; exact timingSound_congr h rfl rfl
  | breaks => rw [takeBreak_frame]; exact timingSound_congr h rfl rfl
  | breakEnds => exact timingSound_congr h rfl rfl
  | transmits => exact timingSound_congr h rfl rfl

end Steps

/-- Settles O56: what a command does to the receivers, the barrier, the timing and the fade, each in its range. -/
theorem framesAndTimingStaySound : Obligations.FramesAndTimingStaySound := by
  intro s t h
  refine ⟨fun hs => ?frames, fun hs => ?timing⟩
  case frames =>
    exact step_keeps (P := FramesSound) (fun _ _ h => framesSound_congr h rfl rfl) (fun _ _ _ => moves_framesSound) h hs
  case timing =>
    exact step_keeps (P := TimingSound) (fun _ _ h => timingSound_congr h rfl rfl) (fun _ _ _ => moves_timingSound) h hs

end Sys2Proof.Proofs

/-! ### Nodes written one after another (R8, R26, R34, R47)

CHECKING, NORMALIZING and LIFTING write one node after another. Where no node is written twice, each ends as its own write
leaves it, and every other node as it was. -/
namespace Sys2Proof.Proofs

open Sys2Proof.Machine

/-- A write of one node: its place and the change. -/
structure NodeWrite where
  channel : Channel
  node : Nat
  change : Node → Node

/-- The place a write goes to. -/
def NodeWrite.place (w : NodeWrite) : Channel × Nat := (w.channel, w.node)

/-- Nodes written one after another. -/
def writeNodes (ws : List NodeWrite) (b : Bank) : Bank :=
  ws.foldl (fun b w => b.setNode w.channel w.node (w.change (b.node w.channel w.node))) b

theorem writeNodes_cons (w : NodeWrite) (ws : List NodeWrite) (b : Bank) :
    writeNodes (w :: ws) b =
      writeNodes ws (b.setNode w.channel w.node (w.change (b.node w.channel w.node))) := rfl

theorem writeNodes_append (ws vs : List NodeWrite) (b : Bank) :
    writeNodes (ws ++ vs) b = writeNodes vs (writeNodes ws b) := List.foldl_append

/-- Writes of nodes change the grids alone. -/
theorem writeNodes_frame (ws : List NodeWrite) (b : Bank) :
    writeNodes ws b = { b with grids := (writeNodes ws b).grids } := by
  induction ws generalizing b with
  | nil => rfl
  | cons w ws ih => exact ih _

theorem writeNodes_node_of_not_mem {ws : List NodeWrite} {c : Channel} {i : Nat} (b : Bank)
    (h : ∀ w ∈ ws, ¬ (w.channel = c ∧ w.node = i)) : (writeNodes ws b).node c i = b.node c i := by
  induction ws generalizing b with
  | nil => rfl
  | cons w ws ih =>
    refine (ih _ fun v hv => h v (List.mem_cons_of_mem _ hv)).trans ?_
    rw [Bank.node_setNode, if_neg (h w List.mem_cons_self)]

theorem writeNodes_node_of_mem {ws : List NodeWrite} {w : NodeWrite} (b : Bank) (hd : (ws.map NodeWrite.place).Nodup)
    (h : w ∈ ws) : (writeNodes ws b).node w.channel w.node = w.change (b.node w.channel w.node) := by
  induction ws generalizing b with
  | nil => cases h
  | cons v ws ih =>
    obtain ⟨hv, hd⟩ := List.nodup_cons.mp hd
    rcases List.mem_cons.mp h with rfl | hw
    · rw [writeNodes_cons, writeNodes_node_of_not_mem, Bank.node_setNode, if_pos ⟨rfl, rfl⟩]
      exact fun u hu hplace => hv (List.mem_map.mpr ⟨u, hu, Prod.ext hplace.1 hplace.2⟩)
    · refine (ih _ hd hw).trans ?_
      rw [Bank.node_setNode, if_neg fun hplace => hv (List.mem_map.mpr ⟨w, hw, ?_⟩)]
      exact Prod.ext hplace.1.symm hplace.2.symm

/-- What every write of a list keeps of a node, the writes keep of every node. -/
theorem writeNodes_keeps {P : Node → Prop} {ws : List NodeWrite} (hw : ∀ w ∈ ws, ∀ n, P n → P (w.change n)) {b : Bank}
    (h : ∀ (c : Channel) (i : Nat), P (b.node c i)) (c : Channel) (i : Nat) : P ((writeNodes ws b).node c i) := by
  induction ws generalizing b with
  | nil => exact h c i
  | cons w ws ih =>
    refine ih (fun v hv => hw v (List.mem_cons_of_mem _ hv)) fun c' i' => ?_
    rw [Bank.node_setNode]
    split
    · exact hw w List.mem_cons_self _ (h _ _)
    · exact h c' i'

/-- A field that no write changes stays. -/
theorem writeNodes_field {α : Type} (f : Node → α) {ws : List NodeWrite} (hw : ∀ w ∈ ws, ∀ n, f (w.change n) = f n)
    (b : Bank) (c : Channel) (i : Nat) : f ((writeNodes ws b).node c i) = f (b.node c i) := by
  induction ws generalizing b with
  | nil => rfl
  | cons w ws ih =>
    refine (ih (fun v hv => hw v (List.mem_cons_of_mem _ hv)) _).trans ?_
    rw [Bank.node_setNode]
    split
    · rename_i hplace
      rw [hw w List.mem_cons_self, hplace.1, hplace.2]
    · rfl

/-! #### The points of a bank and its claims -/

theorem length_points (b : Bank) : b.points.length = b.poolOccupancy := by
  have hseams (l : List (Option Seam)) (k : Nat) : ((l.zipIdx k).flatMap fun e => match e.1 with
      | none => []
      | some s => s.pointsAt e.2).length = (l.map fun e => match e with
        | none => 0
        | some s => s.points.length).sum := by
    induction l generalizing k with
    | nil => rfl
    | cons e l ih =>
      rw [List.zipIdx_cons, List.flatMap_cons, List.length_append, ih, List.map_cons, List.sum_cons]
      cases e <;> simp [Seam.pointsAt]
  exact hseams _ 0

theorem points_grids (b : Bank) (g : Vector (Table Node) 12) : ({ b with grids := g } : Bank).points = b.points := rfl

theorem claims_grids (b : Bank) (g : Vector (Table Node) 12) : ({ b with grids := g } : Bank).claims = b.claims := rfl

theorem writeNodes_points (ws : List NodeWrite) (b : Bank) : (writeNodes ws b).points = b.points := by
  rw [writeNodes_frame, points_grids]

theorem writeNodes_claims (ws : List NodeWrite) (b : Bank) : (writeNodes ws b).claims = b.claims := by
  rw [writeNodes_frame, claims_grids]

theorem mapNodes_points (f : Channel → Node → Node) (b : Bank) : (b.mapNodes f).points = b.points := points_grids b _

theorem mapNodes_claims (f : Channel → Node → Node) (b : Bank) : (b.mapNodes f).claims = b.claims := claims_grids b _

/-- A claim of the walk is a member entry of a point. -/
theorem mem_claims {b : Bank} {q : Claim} : q ∈ b.claims ↔
    ∃ p ∈ b.points, ∃ m ∈ p.members, q = { ref := { seam := p.seam, point := p.point }, channel := m.1, node := m.2.node } := by
  simp only [Bank.claims, List.mem_flatMap, List.mem_map, eq_comm]

/-- The places of the claims, point by point. -/
theorem claims_places (b : Bank) : (b.claims.map fun q => (q.channel, q.node)) =
    b.points.flatMap fun p => p.members.map fun m => (m.1, m.2.node) := by
  simp [Bank.claims, List.map_flatMap, Function.comp_def]

end Sys2Proof.Proofs

/-! ### CHECKING_COMPLETES (R25 to R29, R98)

The walk writes the reference of every claim that passes. A claim is refused where its node is VOID or written before. -/
namespace Sys2Proof.Proofs

open Sys2Proof.Machine

/-- The write of a claim: the node takes the reference of its point (R26). -/
def claimWrite (q : Claim) : NodeWrite := ⟨q.channel, q.node, fun n => { n with seamRef := some q.ref }⟩

theorem claimWrite_places (qs : List Claim) :
    (qs.map claimWrite).map NodeWrite.place = qs.map fun q => (q.channel, q.node) := by
  rw [List.map_map]
  rfl

/-- The walk over claims on distinct nodes, none VOID and none referred to before, writes their references and goes on. -/
theorem walkClaims_append {qs rest : List Claim} {b : Bank} (hd : (qs.map fun q => (q.channel, q.node)).Nodup)
    (hlive : ∀ q ∈ qs, (b.node q.channel q.node).isVoid = false ∧ (b.node q.channel q.node).seamRef = none) :
    walkClaims (qs ++ rest) b = walkClaims rest (writeNodes (qs.map claimWrite) b) := by
  induction qs generalizing b with
  | nil => rfl
  | cons q qs ih =>
    obtain ⟨hq, hd⟩ := List.nodup_cons.mp hd
    obtain ⟨hvoid, href⟩ := hlive q List.mem_cons_self
    have hwalk : walkClaims (q :: (qs ++ rest)) b =
        walkClaims (qs ++ rest) (b.setNode q.channel q.node { b.node q.channel q.node with seamRef := some q.ref }) := by
      simp [walkClaims, hvoid, href]
    refine hwalk.trans (ih hd fun r hr => ?_)
    rw [Bank.node_setNode, if_neg fun hplace => hq ?_]
    · exact hlive r (List.mem_cons_of_mem _ hr)
    · exact List.mem_map.mpr ⟨r, hr, Prod.ext hplace.1.symm hplace.2.symm⟩

theorem walkClaims_void {q : Claim} (rest : List Claim) {b : Bank} (h : (b.node q.channel q.node).isVoid = true) :
    walkClaims (q :: rest) b = (b, some { error := .seamVoidNode, item := .node q.channel q.node }) := by
  simp [walkClaims, h]

theorem walkClaims_conflict {q : Claim} (rest : List Claim) {b : Bank} (h : (b.node q.channel q.node).isVoid = false)
    (href : (b.node q.channel q.node).seamRef.isSome = true) :
    walkClaims (q :: rest) b = (b, some { error := .nodeConflict, item := .node q.channel q.node }) := by
  simp [walkClaims, h, href]

theorem clearRefs_node (b : Bank) (c : Channel) (i : Nat) : b.clearRefs.node c i = { b.node c i with seamRef := none } :=
  Bank.node_mapNodes b _ c i rfl

/-- A SHADOW that CHECKING passes: its walk has written the references, and nothing else. -/
theorem walked_of_distinct {b : Bank} (hd : (b.claims.map fun q => (q.channel, q.node)).Nodup)
    (hlive : ∀ q ∈ b.claims, (b.node q.channel q.node).isVoid = false) :
    Walked (writeNodes (b.claims.map claimWrite) b.clearRefs) := by
  have hclaims : (writeNodes (b.claims.map claimWrite) b.clearRefs).claims = b.claims :=
    (writeNodes_claims _ _).trans (mapNodes_claims _ b)
  refine ⟨by rw [hclaims]; exact hd, fun q hq => ?_, fun c i hnone => ?_⟩
  · rw [hclaims] at hq
    have hwrite := writeNodes_node_of_mem b.clearRefs (w := claimWrite q) (by rwa [claimWrite_places])
      (List.mem_map_of_mem hq)
    simp only [claimWrite, clearRefs_node] at hwrite
    exact ⟨by rw [hwrite]; exact hlive q hq, by rw [hwrite]⟩
  · rw [hclaims] at hnone
    rw [writeNodes_node_of_not_mem, clearRefs_node]
    rintro w hw hplace
    obtain ⟨q, hq, rfl⟩ := List.mem_map.mp hw
    exact hnone q hq hplace

theorem checkBank_walks {b : Bank} (hpool : b.poolOccupancy ≤ 2048) : checkBank b = walkClaims b.claims b.clearRefs :=
  if_neg (Nat.not_lt.mpr hpool)

theorem checkBank_passes {b : Bank} (hpool : b.poolOccupancy ≤ 2048)
    (hd : (b.claims.map fun q => (q.channel, q.node)).Nodup)
    (hlive : ∀ q ∈ b.claims, (b.node q.channel q.node).isVoid = false) :
    checkBank b = (writeNodes (b.claims.map claimWrite) b.clearRefs, none) := by
  have hwalk := walkClaims_append (rest := []) (b := b.clearRefs) hd fun q hq => by
    rw [clearRefs_node]
    exact ⟨hlive q hq, rfl⟩
  rw [List.append_nil] at hwalk
  rw [checkBank_walks hpool, hwalk, walkClaims]

/-- The walk comes to the claim behind those that pass. -/
theorem checkBank_reaches {b : Bank} {qs rest : List Claim} (hpool : b.poolOccupancy ≤ 2048)
    (hclaims : b.claims = qs ++ rest) (hd : (qs.map fun q => (q.channel, q.node)).Nodup)
    (hlive : ∀ q ∈ qs, (b.node q.channel q.node).isVoid = false) :
    checkBank b = walkClaims rest (writeNodes (qs.map claimWrite) b.clearRefs) := by
  rw [checkBank_walks hpool, hclaims]
  refine walkClaims_append hd fun q hq => ?_
  rw [clearRefs_node]
  exact ⟨hlive q hq, rfl⟩

/-! #### The completion of a phase -/

theorem completePhase_at {s : State} {st : CommitState} {k : CurrentCommit} (h : PhaseAt s st k)
    (act : CurrentCommit → State → State) : completePhase st act s = .next (act k s) := by
  obtain ⟨hr, hst, hk⟩ := h
  refine (takeEvent_ready hr _).trans (congrArg _ ?_)
  simp only [hk, if_pos hst]

theorem exec_checkingCompletes {s : State} {k : CurrentCommit} (h : PhaseAt s .checking k) :
    exec .checkingCompletes s = .next (finishChecking k s) := completePhase_at h _

theorem finishChecking_passes {s : State} {k : CurrentCommit} (h : PhaseAt s .checking k) {b : Bank}
    (hb : checkBank s.tables.shadow = (b, none)) :
    finishChecking k s =
      { s with engine := { s.engine with state := .normalizing }, tables := s.tables.setShadow b } := by
  simp only [finishChecking, hb, nextPhase, ← h.2.2]

/-- A phase that fails leaves what the statements call `failed`. -/
theorem failCommit_eq (k : CurrentCommit) (e : CommitError) (i : Item) (b : Bank) (s : State) :
    failCommit k { error := e, item := i } { s with tables := s.tables.setShadow b } = failed k e i b s := rfl

theorem finishChecking_fails {s : State} {k : CurrentCommit} {b : Bank} {e : CommitError} {i : Item}
    (hb : checkBank s.tables.shadow = (b, some { error := e, item := i })) :
    finishChecking k s = failed k e i b s := by
  simp only [finishChecking, hb]
  exact failCommit_eq k e i b s

/-- Settles O19: the pool, then the claims that pass, then the first that does not. -/
theorem checkingWalksTheSeams : Obligations.CheckingWalksTheSeams := by
  refine ⟨?passes, ?full, ?fails⟩
  case passes =>
    intro s k h hpool hd hlive
    refine ⟨_, ?_, ⟨_, writeNodes_frame (s.tables.shadow.claims.map claimWrite) s.tables.shadow.clearRefs⟩,
      walked_of_distinct hd hlive, fun c i => ?_⟩
    · rw [exec_checkingCompletes h, finishChecking_passes h (checkBank_passes hpool hd hlive)]
    · have hfield := writeNodes_field (fun n => { n with seamRef := none })
        (ws := s.tables.shadow.claims.map claimWrite) (fun w hw n => by
          obtain ⟨q, -, rfl⟩ := List.mem_map.mp hw
          rfl) s.tables.shadow.clearRefs c i
      rw [clearRefs_node] at hfield
      exact congrArg (fun n : Node => { n with seamRef :=
        ((writeNodes (s.tables.shadow.claims.map claimWrite) s.tables.shadow.clearRefs).node c i).seamRef }) hfield
  case full =>
    intro s k h hpool
    have hlength : 2048 < s.tables.shadow.points.length := (length_points _).symm ▸ hpool
    have hpoint := List.getElem?_eq_getElem hlength
    refine ⟨s.tables.shadow.points[2048], s.tables.shadow, hpoint, ?_⟩
    rw [exec_checkingCompletes h, finishChecking_fails]
    exact (if_pos hpool).trans (by rw [hpoint]; rfl)
  case fails =>
    intro s k before after q h hpool hclaims hd hlive
    have hreaches := checkBank_reaches hpool hclaims hd hlive
    have hvoid : ((writeNodes (before.map claimWrite) s.tables.shadow.clearRefs).node q.channel q.node).isVoid =
        (s.tables.shadow.node q.channel q.node).isVoid := by
      rw [writeNodes_field Node.isVoid, clearRefs_node]
      intro w hw n
      obtain ⟨r, -, rfl⟩ := List.mem_map.mp hw
      rfl
    refine ⟨fun hq => ⟨writeNodes (before.map claimWrite) s.tables.shadow.clearRefs, ?_⟩,
      fun hq hclaimed => ⟨writeNodes (before.map claimWrite) s.tables.shadow.clearRefs, ?_⟩⟩
    · rw [exec_checkingCompletes h, finishChecking_fails]
      exact hreaches.trans (walkClaims_void after (hvoid.trans hq))
    · rw [exec_checkingCompletes h, finishChecking_fails]
      refine hreaches.trans (walkClaims_conflict after (hvoid.trans hq) ?_)
      obtain ⟨r, hr, hc, hn⟩ := hclaimed
      have hwrite := writeNodes_node_of_mem s.tables.shadow.clearRefs (w := claimWrite r) (by rwa [claimWrite_places])
        (List.mem_map_of_mem hr)
      simp only [claimWrite, hc, hn] at hwrite
      rw [hwrite]
      rfl

end Sys2Proof.Proofs

/-! ### The final shares of a seam point (R31 to R33)

The lead member's coverage is the largest, so its share of the sum is at least one over the number of members, and no other
share is above one half. -/
namespace Sys2Proof.Proofs

open Sys2Proof.Machine

theorem le_foldl_max {rs : List Nat} {r : Nat} (a : Nat) (h : r ≤ a ∨ r ∈ rs) : r ≤ rs.foldl max a := by
  induction rs generalizing a with
  | nil => exact h.resolve_right List.not_mem_nil
  | cons q rs ih =>
    refine ih _ ?_
    rcases h with h | h
    · exact .inl (h.trans (Nat.le_max_left a q))
    · exact (List.mem_cons.mp h).imp_left fun he : r = q => he.trans_le (Nat.le_max_right a q)

theorem foldl_max_mem (rs : List Nat) (a : Nat) : rs.foldl max a = a ∨ rs.foldl max a ∈ rs := by
  induction rs generalizing a with
  | nil => exact .inl rfl
  | cons q rs ih =>
    rcases ih (max a q) with h | h
    · rw [List.foldl_cons, h]
      rcases Nat.le_total a q with haq | hqa
      · rw [Nat.max_eq_right haq]
        exact .inr List.mem_cons_self
      · exact .inl (Nat.max_eq_left hqa)
    · exact .inr (List.mem_cons_of_mem _ h)

section Lead

variable {rs : List Nat} (hne : rs ≠ [])

include hne

theorem foldl_max_mem_of_ne_nil : rs.foldl max 0 ∈ rs := by
  refine (foldl_max_mem rs 0).elim (fun h0 => ?_) id
  obtain ⟨r, hr⟩ := List.exists_mem_of_ne_nil rs hne
  have hzero : r = 0 := Nat.le_zero.mp (h0 ▸ le_foldl_max 0 (.inr hr))
  rw [h0, ← hzero]
  exact hr

theorem leadIndex_lt : leadIndex rs < rs.length := List.idxOf_lt_length_of_mem (foldl_max_mem_of_ne_nil hne)

theorem getElem_leadIndex : rs[leadIndex rs]'(leadIndex_lt hne) = rs.foldl max 0 := List.getElem_idxOf _

omit hne in
/-- The lead is the earliest of the largest coverage. -/
theorem lead_first {j r : Nat} (hj : j < leadIndex rs) (hr : rs[j]? = some r) : r < rs.foldl max 0 := by
  have hmem := List.mem_of_getElem? hr
  refine Nat.lt_of_le_of_ne (le_foldl_max 0 (.inr hmem)) fun he => ?_
  obtain ⟨hlt, hget⟩ := List.getElem?_eq_some_iff.mp hr
  have hnot := List.not_of_lt_findIdx hj
  rw [hget, he, beq_self_eq_true] at hnot
  cases hnot

end Lead

theorem ne_nil_of_sum_pos {rs : List Nat} (h : 0 < rs.sum) : rs ≠ [] := by
  rintro rfl
  exact absurd h (Nat.lt_irrefl 0)

theorem length_flushedShares (tau : Nat) (rs : List Nat) : (flushedShares tau rs).length = rs.length := List.length_map _

theorem length_finalShares (tau : Nat) (rs : List Nat) : (finalShares tau rs).length = rs.length := by
  rw [finalShares, List.length_set, length_flushedShares]

/-- Flushing lowers no more than it drops: the shares but one sum to no more than the rounded shares but that one. -/
theorem sum_eraseIdx_flushedShares_le (tau k : Nat) (rs : List Nat) :
    ((flushedShares tau rs).eraseIdx k).sum ≤ ((flushedShares 0 rs).eraseIdx k).sum := by
  rw [flushedShares_zero, flushedShares, List.eraseIdx_map, List.eraseIdx_map]
  refine List.sum_le_sum fun r _ => ?_
  split
  · exact Nat.zero_le _
  · exact Nat.le_refl _

section Shares

variable {rs : List Nat} (tau : Nat) (hS : 0 < rs.sum)

include hS

/-- The lead's rounded share and what the others keep stay within 4096. -/
theorem lead_add_others_le : rs.foldl max 0 * 4096 / rs.sum + ((flushedShares tau rs).eraseIdx (leadIndex rs)).sum ≤ 4096 := by
  have hlt : leadIndex rs < (flushedShares 0 rs).length := by rw [length_flushedShares]; exact leadIndex_lt (ne_nil_of_sum_pos hS)
  have hlead : (flushedShares 0 rs)[leadIndex rs] = rs.foldl max 0 * 4096 / rs.sum := by
    simp only [flushedShares_zero, List.getElem_map, getElem_leadIndex (ne_nil_of_sum_pos hS)]
  calc _ ≤ (flushedShares 0 rs)[leadIndex rs] + ((flushedShares 0 rs).eraseIdx (leadIndex rs)).sum := by
        rw [hlead]
        exact Nat.add_le_add_left (sum_eraseIdx_flushedShares_le tau _ rs) _
    _ = (flushedShares 0 rs).sum := List.CommMonoid.add_sum_eraseIdx hlt
    _ ≤ 4096 := sum_flushedShares_zero_le hS

theorem sum_finalShares : (finalShares tau rs).sum = 4096 := by
  have hlt : leadIndex rs < (finalShares tau rs).length := by rw [length_finalShares]; exact leadIndex_lt (ne_nil_of_sum_pos hS)
  have hothers := lead_add_others_le tau hS
  rw [← List.CommMonoid.add_sum_eraseIdx hlt]
  simp only [finalShares, List.getElem_set_self, List.eraseIdx_set_eq]
  exact Nat.sub_add_cancel ((Nat.le_add_left _ _).trans hothers)

/-- The share of the lead. -/
theorem finalShares_lead : (finalShares tau rs)[leadIndex rs]? =
    some (4096 - ((flushedShares tau rs).eraseIdx (leadIndex rs)).sum) := by
  rw [finalShares, List.getElem?_set_self]
  rw [length_flushedShares]
  exact leadIndex_lt (ne_nil_of_sum_pos hS)

omit hS in
/-- The share of a member other than the lead. -/
theorem finalShares_other {j : Nat} (hj : j ≠ leadIndex rs) : (finalShares tau rs)[j]? =
    rs[j]?.map fun r => if r * 4096 / rs.sum < tau then 0 else r * 4096 / rs.sum := by
  rw [finalShares, List.getElem?_set_ne hj.symm, flushedShares, List.getElem?_map]

/-- Of two members the one that is not the lead has at most half of the sum. -/
theorem two_mul_other_le {j r : Nat} (hj : j ≠ leadIndex rs) (hr : rs[j]? = some r) : 2 * r ≤ rs.sum := by
  obtain ⟨hlt, hget⟩ := List.getElem?_eq_some_iff.mp hr
  have hlead := List.CommMonoid.add_sum_eraseIdx (leadIndex_lt (ne_nil_of_sum_pos hS))
  rw [getElem_leadIndex (ne_nil_of_sum_pos hS)] at hlead
  have hle : r ≤ rs.foldl max 0 := le_foldl_max 0 (.inr (hget ▸ List.getElem_mem hlt))
  have hrest : r ≤ (rs.eraseIdx (leadIndex rs)).sum :=
    List.le_sum_of_mem (List.mem_eraseIdx_iff_getElem?.mpr ⟨j, hj, hr⟩)
  omega

theorem lead_share_ge (hn : rs.length ≤ 4) : 1024 ≤ rs.foldl max 0 * 4096 / rs.sum := by
  have hsum : rs.sum ≤ 4 * rs.foldl max 0 :=
    (List.sum_le_card_nsmul rs _ fun r hr => le_foldl_max 0 (.inr hr)).trans (Nat.mul_le_mul_right _ hn)
  rw [Nat.le_div_iff_mul_le hS]
  omega

end Shares

/-- Settles O21: the lead takes what the others leave. -/
theorem finalSharesSumToFullWeight : Obligations.FinalSharesSumToFullWeight := by
  intro tau rs _ hn hS _
  refine ⟨length_finalShares tau rs, sum_finalShares tau hS, ⟨rs.foldl max 0, ?_, fun r hr => le_foldl_max 0 (.inr hr),
    fun j hj r hr => lead_first hj hr⟩, fun j q hq => ?_⟩
  · exact List.getElem?_eq_some_iff.mpr ⟨leadIndex_lt (ne_nil_of_sum_pos hS), getElem_leadIndex (ne_nil_of_sum_pos hS)⟩
  · split
    · rename_i hj
      subst hj
      cases (finalShares_lead tau hS).symm.trans hq
      have hlead := lead_share_ge hS hn
      have hothers := lead_add_others_le tau hS
      omega
    · rename_i hj
      rw [finalShares_other tau hj] at hq
      obtain ⟨r, hr, rfl⟩ := Option.map_eq_some_iff.mp hq
      refine ⟨?_, fun r' hr' => by cases hr.symm.trans hr'; rfl⟩
      have hhalf : r * 4096 / rs.sum ≤ 2048 := Nat.div_le_of_le_mul (by have := two_mul_other_le hS hj hr; omega)
      split
      · decide
      · exact hhalf

end Sys2Proof.Proofs

/-! ### Listed nodes and points (R4, R18, R38, R40)

In canonical form a grid lists exactly its nodes that are not the dark default, so the live nodes of a bank are the nodes
that are not VOID. A point is found again by its seam and its place. -/
namespace Sys2Proof.Proofs

open Sys2Proof.Machine

section Entries

variable {α : Type} {d : Nat → α} {l : List (Nat × α)} {i : Nat} {v : α}

theorem getEntry_of_mem (hs : (l.map Prod.fst).Pairwise (· < ·)) (h : (i, v) ∈ l) : getEntry d l i = v := by
  induction l with
  | nil => cases h
  | cons e l ih =>
    obtain ⟨k, w⟩ := e
    obtain ⟨hlt, hs⟩ := List.pairwise_cons.mp hs
    rcases List.mem_cons.mp h with he | h
    · cases he
      exact if_pos rfl
    · exact (if_neg (Nat.ne_of_lt (hlt i (List.mem_map_of_mem h)))).trans (ih hs h)

theorem mem_of_getEntry_ne (h : getEntry d l i ≠ d i) : (i, getEntry d l i) ∈ l := by
  induction l with
  | nil => exact absurd rfl h
  | cons e l ih =>
    obtain ⟨k, w⟩ := e
    simp only [getEntry] at h ⊢
    split
    · rename_i hk
      rw [hk]
      exact List.mem_cons_self
    · rename_i hk
      rw [if_neg hk] at h
      exact List.mem_cons_of_mem _ (ih h)

/-- In canonical form a table lists exactly what differs from the default. -/
theorem mem_entries_iff [DecidableEq α] {t : Table α} (h : t.wf d = true) :
    (i, v) ∈ t.entries ↔ t.get d i = v ∧ v ≠ d i := by
  simp only [Table.wf, Bool.and_eq_true, decide_eq_true_eq, List.all_eq_true] at h
  obtain ⟨hs, hd⟩ := h
  refine ⟨fun hm => ⟨getEntry_of_mem hs hm, hd _ hm⟩, fun ⟨hget, hne⟩ => ?_⟩
  have hlisted := mem_of_getEntry_ne (d := d) (l := t.entries) (i := i)
    (by rw [show getEntry d t.entries i = v from hget]; exact hne)
  rwa [show getEntry d t.entries i = v from hget] at hlisted

end Entries

theorem grid_wf {b : Bank} (h : b.wf = true) (c : Channel) : (b.grids[c]).wf darkNode = true := by
  simp only [Bank.wf, Bool.and_eq_true, List.all_eq_true] at h
  exact h.1.1 _ (by simp)

/-- A listed node that is not VOID. -/
theorem mem_grid_iff {b : Bank} (h : b.wf = true) {c : Channel} {i : Nat} {n : Node} (hn : n.isVoid = false) :
    (i, n) ∈ b.grids[c].entries ↔ b.node c i = n := by
  rw [mem_entries_iff (grid_wf h c)]
  refine and_iff_left ?_
  rintro rfl
  cases hn

/-- The live nodes are the nodes that are not VOID (R40). -/
theorem mem_liveNodes {b : Bank} (h : b.wf = true) {c : Channel} {n : Node} :
    (c, n) ∈ b.liveNodes ↔ n.isVoid = false ∧ ∃ i, b.node c i = n := by
  simp only [Bank.liveNodes, List.mem_flatMap, List.mem_filter, List.mem_map]
  constructor
  · rintro ⟨c', -, ⟨⟨i, m⟩, he, heq⟩, hv⟩
    cases heq
    have hv : m.isVoid = false := by simpa using hv
    exact ⟨hv, i, (mem_grid_iff h hv).mp he⟩
  · rintro ⟨hv, i, hi⟩
    exact ⟨c, mem_channels c, ⟨(i, n), (mem_grid_iff h hv).mpr hi, rfl⟩, by simp [hv]⟩

/-! #### Points -/

/-- A point of a bank stands in a present seam, at its place, and pairs the members with its entries. -/
theorem mem_points {b : Bank} {p : PointAt} : p ∈ b.points ↔
    ∃ m es, b.seams.toList[p.seam]? = some (some m) ∧ m.points[p.point]? = some es ∧ p.members = m.members.zip es := by
  simp only [Bank.points, List.mem_flatMap]
  constructor
  · rintro ⟨⟨e, id⟩, he, hp⟩
    cases e with
    | none => cases hp
    | some m =>
      obtain ⟨⟨es, k⟩, hk, rfl⟩ := List.mem_map.mp hp
      exact ⟨m, es, List.mk_mem_zipIdx_iff_getElem?.mp he, List.mk_mem_zipIdx_iff_getElem?.mp hk, rfl⟩
  · rintro ⟨m, es, hm, hes, hmembers⟩
    refine ⟨(some m, p.seam), List.mk_mem_zipIdx_iff_getElem?.mpr hm, List.mem_map.mpr
      ⟨(es, p.point), List.mk_mem_zipIdx_iff_getElem?.mpr hes, ?_⟩⟩
    rw [← hmembers]

/-- A point is determined by its seam and its place. -/
theorem points_inj {b : Bank} {p q : PointAt} (hp : p ∈ b.points) (hq : q ∈ b.points) (hseam : p.seam = q.seam)
    (hpoint : p.point = q.point) : p = q := by
  obtain ⟨m, es, hm, hes, hmembers⟩ := mem_points.mp hp
  obtain ⟨m', es', hm', hes', hmembers'⟩ := mem_points.mp hq
  rw [hseam] at hm
  cases hm.symm.trans hm'
  rw [hpoint] at hes
  cases hes.symm.trans hes'
  cases p
  cases q
  simp_all

theorem length_coverages (p : PointAt) : p.coverages.length = p.members.length := List.length_map _

/-- The black of a seam's points, as the statements write it (R38). -/
theorem seamBlackAt_eq (b : Bank) (id : Nat) : b.seamBlackAt id = sumOfBeta b id := by
  unfold Bank.seamBlackAt sumOfBeta
  split
  · rename_i h
    rw [List.getElem?_eq_getElem (by simpa using h)]
    simp only [Vector.getElem_toList]
    cases b.seams[id] <;> rfl
  · rename_i h
    rw [List.getElem?_eq_none (by simpa using h)]

/-- The black of a node, as the statements write it (R38). -/
theorem nodeBlack_eq (b : Bank) (c : Channel) (n : Node) : b.nodeBlack c n = blackAt b c n := by
  unfold Bank.nodeBlack blackAt
  cases n.seamRef with
  | none => rfl
  | some r => exact seamBlackAt_eq b r.seam

end Sys2Proof.Proofs

/-! ### NORMALIZING_COMPLETES (R30 to R34, R96)

On a SHADOW that CHECKING has walked, no node is claimed twice: every member node ends with its own share, and no other node
is written after its base weight. -/
namespace Sys2Proof.Proofs

open Sys2Proof.Machine

section PointWrites

/-- The writes to the member nodes of a point, one value to each. -/
def memberWrites (change : Nat → Node → Node) (p : PointAt) (vs : List Nat) : List NodeWrite :=
  (p.members.zip vs).map fun mv => ⟨mv.1.1, mv.1.2.node, change mv.2⟩

/-- The writes to the member nodes of every point. -/
def pointWrites (change : Nat → Node → Node) (values : PointAt → List Nat) (b : Bank) : List NodeWrite :=
  b.points.flatMap fun p => memberWrites change p (values p)

variable {change : Nat → Node → Node} {values : PointAt → List Nat} {b : Bank}

theorem mem_pointWrites {w : NodeWrite} : w ∈ pointWrites change values b →
    ∃ p ∈ b.points, ∃ m ∈ p.members, ∃ v, w = ⟨m.1, m.2.node, change v⟩ := by
  intro hw
  obtain ⟨p, hp, hw⟩ := List.mem_flatMap.mp hw
  obtain ⟨⟨m, v⟩, hmv, rfl⟩ := List.mem_map.mp hw
  exact ⟨p, hp, m, (List.of_mem_zip hmv).1, v, rfl⟩

/-- A write goes to the place of a claim. -/
theorem pointWrites_claimed {w : NodeWrite} (h : w ∈ pointWrites change values b) :
    ∃ q ∈ b.claims, q.channel = w.channel ∧ q.node = w.node := by
  obtain ⟨p, hp, m, hm, v, rfl⟩ := mem_pointWrites h
  exact ⟨_, mem_claims.mpr ⟨p, hp, m, hm, rfl⟩, rfl, rfl⟩

theorem pointWrites_places (hv : ∀ p ∈ b.points, p.members.length ≤ (values p).length) :
    (pointWrites change values b).map NodeWrite.place = b.claims.map fun q => (q.channel, q.node) := by
  rw [claims_places, pointWrites, List.map_flatMap]
  refine List.flatMap_congr fun p hp => ?_
  rw [memberWrites, List.map_map, ← List.map_fst_zip (hv p hp), List.map_map]
  rw [List.map_fst_zip (hv p hp)]
  rfl

/-- Every member node ends as its own write leaves it. -/
theorem pointWrites_node {b₀ : Bank} (hd : (b.claims.map fun q => (q.channel, q.node)).Nodup)
    (hv : ∀ p ∈ b.points, p.members.length ≤ (values p).length) {p : PointAt} (hp : p ∈ b.points) {j v : Nat}
    {m : Channel × MemberEntry} (hm : p.members[j]? = some m) (hval : (values p)[j]? = some v) :
    (writeNodes (pointWrites change values b) b₀).node m.1 m.2.node = change v (b₀.node m.1 m.2.node) := by
  refine writeNodes_node_of_mem (w := ⟨m.1, m.2.node, change v⟩) b₀ (by rwa [pointWrites_places hv]) ?_
  refine List.mem_flatMap.mpr ⟨p, hp, List.mem_map.mpr ⟨(m, v), ?_, rfl⟩⟩
  exact List.mem_of_getElem? (i := j) (List.getElem?_zip_eq_some.mpr ⟨hm, hval⟩)

/-- A node that no point claims is not written. -/
theorem pointWrites_unclaimed {b₀ : Bank} {c : Channel} {i : Nat}
    (h : ∀ q ∈ b.claims, ¬ (q.channel = c ∧ q.node = i)) :
    (writeNodes (pointWrites change values b) b₀).node c i = b₀.node c i := by
  refine writeNodes_node_of_not_mem b₀ fun w hw hplace => ?_
  obtain ⟨q, hq, hc, hn⟩ := pointWrites_claimed hw
  exact h q hq ⟨hc.trans hplace.1, hn.trans hplace.2⟩

theorem pointWrites_field {α : Type} (f : Node → α) (hf : ∀ v n, f (change v n) = f n) (b₀ : Bank) (c : Channel) (i : Nat) :
    f ((writeNodes (pointWrites change values b) b₀).node c i) = f (b₀.node c i) := by
  refine writeNodes_field f (fun w hw n => ?_) b₀ c i
  obtain ⟨p, -, m, -, v, rfl⟩ := mem_pointWrites hw
  exact hf v n

/-- The values at the members of a point, in member order. -/
theorem pointWrites_values {b₀ : Bank} (f : Node → Nat) (hf : ∀ v n, f (change v n) = v)
    (hd : (b.claims.map fun q => (q.channel, q.node)).Nodup)
    (hv : ∀ p ∈ b.points, (values p).length = p.members.length) {p : PointAt} (hp : p ∈ b.points) :
    (p.members.map fun m => f ((writeNodes (pointWrites change values b) b₀).node m.1 m.2.node)) = values p := by
  refine List.ext_getElem (by rw [List.length_map, hv p hp]) fun j hj hj' => ?_
  have hjm : j < p.members.length := by simpa using hj
  rw [List.getElem_map, pointWrites_node hd (fun p hp => (hv p hp).ge) hp (List.getElem?_eq_getElem hjm)
    (List.getElem?_eq_getElem hj'), hf]

end PointWrites

/-- A seam of the walk claims the nodes of its points, so a node without a reference is not written. -/
theorem unclaimed_of_walked {b : Bank} (h : Walked b) {c : Channel} {i : Nat} (hn : (b.node c i).seamRef = none) :
    ∀ q ∈ b.claims, ¬ (q.channel = c ∧ q.node = i) := by
  rintro q hq ⟨rfl, rfl⟩
  have hsome := (h.claimed q hq).2
  rw [hn] at hsome
  cases hsome

/-! #### The weights -/

/-- The write of a weight. -/
def withWeight (w : Nat) (n : Node) : Node := { n with weight := w }

/-- The shares of a point in a bank. -/
def Bank.shares (b : Bank) (p : PointAt) : List Nat := finalShares b.sky.tau p.coverages

theorem length_shares (b : Bank) (p : PointAt) : (Bank.shares b p).length = p.members.length := by
  rw [Bank.shares, length_finalShares, length_coverages]

theorem writeWeights_eq (mvs : List ((Channel × MemberEntry) × Nat)) (b : Bank) :
    writeWeights mvs b = writeNodes (mvs.map fun mv => ⟨mv.1.1, mv.1.2.node, withWeight mv.2⟩) b := by
  induction mvs generalizing b with
  | nil => rfl
  | cons mv mvs ih => exact ih _

theorem foldl_writeNodes {ws : PointAt → List NodeWrite} (ps : List PointAt) (b : Bank) :
    ps.foldl (fun b' p => writeNodes (ws p) b') b = writeNodes (ps.flatMap ws) b := by
  induction ps generalizing b with
  | nil => rfl
  | cons p ps ih => rw [List.foldl_cons, ih, List.flatMap_cons, writeNodes_append]

theorem normalized_eq (b : Bank) :
    b.normalized = writeNodes (pointWrites withWeight (Bank.shares b) b) (b.mapNodes fun _ n => n.withBaseWeight) := by
  simp only [Bank.normalized, writeWeights_eq]
  exact foldl_writeNodes _ _

theorem normalized_frame (b : Bank) : b.normalized = { b with grids := b.normalized.grids } := by
  rw [normalized_eq, writeNodes_frame]
  rfl

theorem baseWeights_node (b : Bank) (c : Channel) (i : Nat) :
    (b.mapNodes fun _ n => n.withBaseWeight).node c i = (b.node c i).withBaseWeight := Bank.node_mapNodes b _ c i rfl

/-- A normalized node differs in its weight alone. -/
theorem normalized_node (b : Bank) (c : Channel) (i : Nat) :
    b.normalized.node c i = { b.node c i with weight := (b.normalized.node c i).weight } := by
  have hfield := pointWrites_field (change := withWeight) (values := Bank.shares b) (b := b)
    (fun n => { n with weight := 0 }) (fun _ _ => rfl) (b.mapNodes fun _ n => n.withBaseWeight) c i
  rw [← normalized_eq, baseWeights_node] at hfield
  exact congrArg (fun n : Node => { n with weight := (b.normalized.node c i).weight }) hfield

theorem normalized_claims (b : Bank) : b.normalized.claims = b.claims := by rw [normalized_frame, claims_grids]

theorem normalized_points (b : Bank) : b.normalized.points = b.points := by rw [normalized_frame, points_grids]

section Walked

variable {b : Bank} (h : Walked b)

include h

theorem normalized_member {p : PointAt} (hp : p ∈ b.points) {j : Nat} {m : Channel × MemberEntry}
    (hm : p.members[j]? = some m) :
    (Bank.shares b p)[j]? = some (b.normalized.node m.1 m.2.node).weight := by
  have hj : j < (Bank.shares b p).length := by
    rw [length_shares]
    exact (List.getElem?_eq_some_iff.mp hm).1
  have hget := List.getElem?_eq_getElem hj
  rw [normalized_eq, pointWrites_node h.distinct (fun p _ => (length_shares b p).ge) hp hm hget]
  exact hget

theorem normalized_interior {c : Channel} {i : Nat} (hn : (b.node c i).seamRef = none) :
    b.normalized.node c i = (b.node c i).withBaseWeight := by
  rw [normalized_eq, pointWrites_unclaimed (unclaimed_of_walked h hn), baseWeights_node]

/-- At every point of a normalized bank the weights sum to 4096 (R33). -/
theorem weightsBalanced_normalized (hpos : ∀ p ∈ b.points, p.coverages.sum ≠ 0) : WeightsBalanced b.normalized := by
  intro p hp
  rw [normalized_points] at hp
  have hvalues := pointWrites_values (change := withWeight) (b₀ := b.mapNodes fun _ n => n.withBaseWeight) Node.weight (fun _ _ => rfl) h.distinct
    (fun p _ => length_shares b p) hp
  rw [normalized_eq, hvalues]
  exact sum_finalShares _ (Nat.pos_of_ne_zero (hpos p hp))

end Walked

/-- What the walk leaves depends on the seams and on the VOID flags and references alone. -/
theorem walked_congr {b b' : Bank} (hc : b'.claims = b.claims)
    (hn : ∀ (c : Channel) (i : Nat), (b'.node c i).isVoid = (b.node c i).isVoid ∧ (b'.node c i).seamRef = (b.node c i).seamRef)
    (h : Walked b) : Walked b' := by
  refine ⟨by rw [hc]; exact h.distinct, fun q hq => ?_, fun c i hnone => ?_⟩
  · rw [(hn _ _).1, (hn _ _).2]
    exact h.claimed q (hc ▸ hq)
  · rw [(hn c i).2]
    exact h.others c i (hc ▸ hnone)

theorem walked_normalized {b : Bank} (h : Walked b) : Walked b.normalized :=
  walked_congr (normalized_claims b) (fun c i => by rw [normalized_node]; exact ⟨rfl, rfl⟩) h

/-! #### The completion -/

theorem zeroPoint_of_split {b : Bank} {before after : List PointAt} {p : PointAt} (hp : b.points = before ++ p :: after)
    (hpos : ∀ q ∈ before, q.coverages.sum ≠ 0) (hzero : p.coverages.sum = 0) : b.zeroPoint = some p := by
  rw [Bank.zeroPoint, hp, List.find?_append, List.find?_eq_none.mpr (by simpa using hpos), Option.none_or,
    List.find?_cons_of_pos (by simpa using hzero)]

theorem zeroPoint_eq_none {b : Bank} : b.zeroPoint = none ↔ ∀ p ∈ b.points, p.coverages.sum ≠ 0 := by
  simp [Bank.zeroPoint]

theorem exec_normalizingCompletes {s : State} {k : CurrentCommit} (h : PhaseAt s .normalizing k) :
    exec .normalizingCompletes s = .next (finishNormalizing k s) := completePhase_at h _

/-- Settles O22: the first zero point, or every member its share and every other node its base weight. -/
theorem normalizingWritesWeights : Obligations.NormalizingWritesWeights := by
  refine ⟨?zero, ?weights⟩
  case zero =>
    intro s k before after p h hp hpos hzero
    rw [exec_normalizingCompletes h, finishNormalizing, zeroPoint_of_split hp hpos hzero]
    have hself := failCommit_eq k .zeroCoverage (.point p.seam p.point) s.tables.shadow s
    rw [setShadow_shadow] at hself
    exact congrArg _ hself
  case weights =>
    intro s k h hpos hw
    refine ⟨s.tables.shadow.normalized, ?_, ⟨_, normalized_frame _⟩, normalized_node _, fun p hp j m hm => ?_,
      fun c i hn => ?_⟩
    · rw [exec_normalizingCompletes h, finishNormalizing, zeroPoint_eq_none.mpr hpos]
      rfl
    · exact normalized_member hw hp hm
    · rw [normalized_node] at hn
      rw [normalized_interior hw hn]
      rfl

end Sys2Proof.Proofs

/-! ### FLOORING_COMPLETES and LIFTING_COMPLETES (R38 to R49, R97) -/
namespace Sys2Proof.Proofs

open Sys2Proof.Machine

/-! #### The floor value -/

theorem floorValue_fixed {b : Bank} (h : b.sky.floorMode = .fixed) : b.floorValue = b.sky.phiSet := by
  rw [Bank.floorValue, h]

/-- In AUTO mode the floor is the largest black of a node that is not VOID (R40). -/
theorem floorValue_auto {b : Bank} (hwf : b.wf = true) (h : b.sky.floorMode = .auto) :
    (∀ (c : Channel) (i : Nat), (b.node c i).isVoid = false → blackAt b c (b.node c i) ≤ b.floorValue) ∧
      (b.floorValue = 0 ∨ ∃ (c : Channel) (i : Nat), (b.node c i).isVoid = false ∧
        b.floorValue = blackAt b c (b.node c i)) := by
  have hvalue : b.floorValue = (b.liveNodes.map fun p => b.nodeBlack p.1 p.2).foldl max 0 := by rw [Bank.floorValue, h]
  rw [hvalue]
  refine ⟨fun c i hv => le_foldl_max 0 (.inr ?_), (foldl_max_mem _ 0).imp_right fun hmem => ?_⟩
  · rw [← nodeBlack_eq]
    exact List.mem_map.mpr ⟨(c, b.node c i), (mem_liveNodes hwf).mpr ⟨hv, i, rfl⟩, rfl⟩
  · obtain ⟨⟨c, n⟩, hlive, hblack⟩ := List.mem_map.mp hmem
    obtain ⟨hv, i, rfl⟩ := (mem_liveNodes hwf).mp hlive
    exact ⟨c, i, hv, by rw [← hblack, nodeBlack_eq]⟩

theorem exec_flooringCompletes {s : State} {k : CurrentCommit} (h : PhaseAt s .flooring k) :
    exec .flooringCompletes s = .next (finishFlooring k s) := completePhase_at h _

/-- Settles O23: Φ_set, or the largest black of the live nodes. -/
theorem flooringSetsTheFloor : Obligations.FlooringSetsTheFloor := by
  intro s k h hwf
  exact ⟨s.tables.shadow.floorValue, exec_flooringCompletes h, floorValue_fixed, floorValue_auto hwf⟩

/-! #### The lifts -/

/-- The write of a lift. -/
def withLift (v : Nat) (n : Node) : Node := { n with lift := v }

/-- The lifts of a point in a bank, its lead taken from a list of leads. -/
def Bank.lifts (b : Bank) (leads : List Lead) (p : PointAt) : List Nat :=
  liftShares (b.sky.phi - b.seamBlackAt p.seam) p.members.length (leadOf leads p)

theorem length_lifts (b : Bank) (leads : List Lead) (p : PointAt) : (Bank.lifts b leads p).length = p.members.length := by
  simp [Bank.lifts, liftShares]

theorem writeLifts_eq (mvs : List ((Channel × MemberEntry) × Nat)) (b : Bank) :
    writeLifts mvs b = writeNodes (mvs.map fun mv => ⟨mv.1.1, mv.1.2.node, withLift mv.2⟩) b := by
  induction mvs generalizing b with
  | nil => rfl
  | cons mv mvs ih => exact ih _

theorem lifted_eq (b : Bank) (leads : List Lead) :
    b.lifted leads = writeNodes (pointWrites withLift (Bank.lifts b leads) b) (b.mapNodes b.interiorLift) := by
  simp only [Bank.lifted, writeLifts_eq]
  exact foldl_writeNodes _ _

theorem lifted_frame (b : Bank) (leads : List Lead) : b.lifted leads = { b with grids := (b.lifted leads).grids } := by
  rw [lifted_eq, writeNodes_frame]
  rfl

theorem lifted_points (b : Bank) (leads : List Lead) : (b.lifted leads).points = b.points := by
  rw [lifted_frame, points_grids]

theorem lifted_claims (b : Bank) (leads : List Lead) : (b.lifted leads).claims = b.claims := by
  rw [lifted_frame, claims_grids]

theorem interiorLifts_node (b : Bank) (c : Channel) (i : Nat) :
    (b.mapNodes b.interiorLift).node c i = b.interiorLift c (b.node c i) := Bank.node_mapNodes b _ c i rfl

/-- A lifted node differs in its lift alone. -/
theorem lifted_node (b : Bank) (leads : List Lead) (c : Channel) (i : Nat) :
    (b.lifted leads).node c i = { b.node c i with lift := ((b.lifted leads).node c i).lift } := by
  have hfield := pointWrites_field (change := withLift) (values := Bank.lifts b leads) (b := b)
    (fun n => { n with lift := 0 }) (fun _ _ => rfl) (b.mapNodes b.interiorLift) c i
  rw [← lifted_eq, interiorLifts_node] at hfield
  exact congrArg (fun n : Node => { n with lift := ((b.lifted leads).node c i).lift }) hfield

/-- The lead recorded for a point is its own (R34). -/
theorem leadOf_leads {b : Bank} {p : PointAt} (hp : p ∈ b.points) : leadOf b.leads p = leadIndex p.coverages := by
  have hfound : ∃ l, (b.leads.find? fun l => decide (l.seam = p.seam ∧ l.point = p.point)) = some l := by
    rw [← Option.isSome_iff_exists, List.find?_isSome]
    exact ⟨_, List.mem_map.mpr ⟨p, hp, rfl⟩, by simp⟩
  obtain ⟨l, hl⟩ := hfound
  have hplace : l.seam = p.seam ∧ l.point = p.point := by simpa using List.find?_some hl
  obtain ⟨q, hq, rfl⟩ := List.mem_map.mp (List.mem_of_find?_eq_some hl)
  simp only [leadOf, hl]
  rw [points_inj hq hp hplace.1 hplace.2]

section Shares

variable {d n lead : Nat}

theorem length_liftShares (d n lead : Nat) : (liftShares d n lead).length = n := by simp [liftShares]

theorem liftShares_getElem? {j : Nat} (hj : j < n) :
    (liftShares d n lead)[j]? = some (if j = lead then d - (n - 1) * (d / n) else d / n) := by
  rw [liftShares, List.getElem?_set]
  simp only [List.length_replicate, List.getElem?_replicate, if_pos hj]
  split
  · rename_i h
    rw [h, if_pos hj, if_pos rfl]
  · rename_i h
    rw [if_neg (Ne.symm h)]

/-- The lifts of a point sum to its shortfall (R47). -/
theorem sum_liftShares (h : lead < n) : (liftShares d n lead).sum = d := by
  have hlt : lead < (liftShares d n lead).length := by rwa [length_liftShares]
  have hle : (n - 1) * (d / n) ≤ d :=
    (Nat.mul_le_mul_right _ (Nat.sub_le n 1)).trans (Nat.mul_div_le d n)
  rw [← List.CommMonoid.add_sum_eraseIdx hlt]
  simp only [liftShares, List.getElem_set_self, List.eraseIdx_set_eq, List.eraseIdx_replicate, if_pos h,
    List.sum_replicate, smul_eq_mul]
  exact Nat.sub_add_cancel hle

end Shares

section Walked

variable {b : Bank} {leads : List Lead} (h : Walked b)

include h

theorem lifted_member {p : PointAt} (hp : p ∈ b.points) {j : Nat} {m : Channel × MemberEntry}
    (hm : p.members[j]? = some m) :
    (Bank.lifts b leads p)[j]? = some ((b.lifted leads).node m.1 m.2.node).lift := by
  have hj : j < (Bank.lifts b leads p).length := by
    rw [length_lifts]
    exact (List.getElem?_eq_some_iff.mp hm).1
  have hget := List.getElem?_eq_getElem hj
  rw [lifted_eq, pointWrites_node h.distinct (fun p _ => (length_lifts b leads p).ge) hp hm hget]
  exact hget

theorem lifted_interior {c : Channel} {i : Nat} (hn : (b.node c i).seamRef = none) :
    (b.lifted leads).node c i = b.interiorLift c (b.node c i) := by
  rw [lifted_eq, pointWrites_unclaimed (unclaimed_of_walked h hn), interiorLifts_node]

omit h in
theorem leadIndex_lt_members {p : PointAt} (hne : p.members ≠ []) : leadIndex p.coverages < p.members.length :=
  length_coverages p ▸ leadIndex_lt (by simpa [PointAt.coverages] using hne)

/-- At every point of a lifted bank the lifts sum to the shortfall (R48). -/
theorem liftsBalanced_lifted (hne : ∀ p ∈ b.points, p.members ≠ []) : LiftsBalanced (b.lifted b.leads) := by
  intro p hp
  rw [lifted_points] at hp
  have hvalues := pointWrites_values (change := withLift) (b₀ := b.mapNodes b.interiorLift) Node.lift (fun _ _ => rfl)
    h.distinct (fun p _ => length_lifts b b.leads p) hp
  have hsky : (b.lifted b.leads).sky.phi = b.sky.phi := by rw [lifted_frame]
  have hbeta : sumOfBeta (b.lifted b.leads) p.seam = sumOfBeta b p.seam := by rw [lifted_frame]; rfl
  rw [hsky, hbeta, ← seamBlackAt_eq, lifted_eq, hvalues, Bank.lifts, leadOf_leads hp]
  exact sum_liftShares (leadIndex_lt_members (hne p hp))

end Walked

theorem walked_lifted {b : Bank} (leads : List Lead) (h : Walked b) : Walked (b.lifted leads) :=
  walked_congr (lifted_claims b leads) (fun c i => by rw [lifted_node]; exact ⟨rfl, rfl⟩) h

/-! #### The shortfall count -/

/-- The interior nodes of one channel whose β lies above Φ, by node index (R46). -/
def shortNodes (b : Bank) (c : Channel) : List (Channel × Nat) :=
  (b.grids[c].entries.filter fun e =>
    (!e.2.isVoid) && (e.2.seamRef.isNone && decide (b.sky.phi < b.nodeBlack c e.2))).map fun e => (c, e.1)

theorem mem_shortNodes {b : Bank} (hwf : b.wf = true) {c c' : Channel} {i : Nat} : (c', i) ∈ shortNodes b c ↔
    c' = c ∧ (b.node c i).isVoid = false ∧ (b.node c i).seamRef = none ∧ b.sky.phi < (b.records[c]).beta := by
  simp only [shortNodes, List.mem_map, List.mem_filter]
  constructor
  · rintro ⟨⟨j, n⟩, ⟨he, hn⟩, heq⟩
    cases heq
    simp only [Bool.and_eq_true, Bool.not_eq_true', Option.isNone_iff_eq_none, decide_eq_true_eq] at hn
    obtain ⟨hv, href, hphi⟩ := hn
    have hnode := (mem_grid_iff hwf hv).mp he
    rw [Bank.nodeBlack, href] at hphi
    exact ⟨rfl, by rw [hnode]; exact hv, by rw [hnode]; exact href, hphi⟩
  · rintro ⟨rfl, hv, href, hphi⟩
    refine ⟨(i, b.node c' i), ⟨(mem_grid_iff hwf hv).mpr rfl, ?_⟩, rfl⟩
    simp only [Bank.nodeBlack, href, hv, Bool.and_eq_true, Bool.not_false, Option.isNone_none, decide_eq_true_eq]
    exact ⟨trivial, trivial, hphi⟩

theorem nodup_shortNodes {b : Bank} (hwf : b.wf = true) (c : Channel) : (shortNodes b c).Nodup := by
  have hs := grid_wf hwf c
  simp only [Table.wf, Bool.and_eq_true, decide_eq_true_eq] at hs
  have hkeys : (b.grids[c].entries.map Prod.fst).Nodup := hs.1.imp Nat.ne_of_lt
  refine List.Nodup.of_map Prod.snd ?_
  rw [shortNodes, List.map_map]
  exact hkeys.sublist (List.filter_sublist.map _)

theorem shortNodes_length (b : Bank) :
    (b.liveNodes.filter fun p => p.2.seamRef.isNone && decide (b.sky.phi < b.nodeBlack p.1 p.2)).length =
      (channels.flatMap (shortNodes b)).length := by
  rw [Bank.liveNodes, List.filter_flatMap, List.length_flatMap, List.length_flatMap]
  refine congrArg List.sum (List.map_congr_left fun c _ => ?_)
  rw [shortNodes, List.length_map, List.filter_filter, List.filter_map, List.length_map]
  refine congrArg List.length (List.filter_congr fun e _ => ?_)
  exact Bool.and_comm _ _

theorem nodup_channels : channels.Nodup := by decide

/-- The nodes that the shortfall count counts (R46). -/
theorem shortfallCount_eq {b : Bank} (hwf : b.wf = true) : ∃ interior : List (Channel × Nat), interior.Nodup ∧
    (∀ (c : Channel) (i : Nat), (c, i) ∈ interior ↔ (b.node c i).isVoid = false ∧ (b.node c i).seamRef = none ∧
      b.sky.phi < (b.records[c]).beta) ∧
    b.shortfallCount = interior.length +
      (b.points.filter fun p => decide (b.sky.phi < sumOfBeta b p.seam)).length := by
  refine ⟨channels.flatMap (shortNodes b), ?_, fun c i => ?_, ?_⟩
  · refine List.nodup_flatMap.mpr ⟨fun c _ => nodup_shortNodes hwf c, nodup_channels.imp fun hne => ?_⟩
    rintro ⟨c, i⟩ hc hc'
    exact hne (((mem_shortNodes hwf).mp hc).1.symm.trans ((mem_shortNodes hwf).mp hc').1)
  · rw [List.mem_flatMap]
    refine ⟨fun ⟨c', _, hc⟩ => ?_, fun hc => ⟨c, mem_channels c, (mem_shortNodes hwf).mpr ⟨rfl, hc⟩⟩⟩
    obtain ⟨rfl, hshort⟩ := (mem_shortNodes hwf).mp hc
    exact hshort
  · rw [Bank.shortfallCount, shortNodes_length]
    simp only [seamBlackAt_eq]

/-! #### The completion -/

theorem exec_liftingCompletes {s : State} {k : CurrentCommit} (h : PhaseAt s .lifting k) :
    exec .liftingCompletes s = .next (finishLifting k s) := completePhase_at h _

/-- Settles O24: every interior node its own lift, every member its part of the point's shortfall. -/
theorem liftingArmsTheCommit : Obligations.LiftingArmsTheCommit := by
  intro s k h hw hleads hpos
  refine ⟨s.tables.shadow.lifted k.leads, s.tables.shadow.shortfallCount, exec_liftingCompletes h, shortfallCount_eq,
    ⟨_, lifted_frame _ _⟩, lifted_node _ _, fun c i hn => ?_, fun p hp j m hm => ?_, ?_⟩
  · rw [lifted_node] at hn
    rw [lifted_interior hw hn, lifted_frame, Bank.interiorLift, Bank.nodeBlack, hn]
  · rw [lifted_points] at hp
    have hj : j < p.members.length := (List.getElem?_eq_some_iff.mp hm).1
    have hshare := lifted_member (leads := k.leads) hw hp hm
    rw [Bank.lifts, liftShares_getElem? hj, hleads, leadOf_leads hp] at hshare
    have hsky : (s.tables.shadow.lifted k.leads).sky.phi = s.tables.shadow.sky.phi := by rw [lifted_frame]
    have hbeta : sumOfBeta (s.tables.shadow.lifted k.leads) p.seam = sumOfBeta s.tables.shadow p.seam := by
      rw [lifted_frame]
      rfl
    rw [hsky, hbeta, ← seamBlackAt_eq, hleads]
    exact (Option.some.inj hshare).symm
  · rw [hleads]
    refine liftsBalanced_lifted hw fun p hp hnil => hpos p hp ?_
    rw [PointAt.coverages, hnil]
    rfl

end Sys2Proof.Proofs

/-! ### The committed sky stays balanced (R26, R29, R33, R34, R48)

Each phase hands the next one a SHADOW that is as far balanced as the phases so far make it; the swap makes it ACTIVE. -/
namespace Sys2Proof.Proofs

open Sys2Proof.Machine

/-- The balance of the tables and the engine. -/
structure PartBalanced (c : CommitPart) : Prop where
  registered : Registered c.tables.active
  walked : c.engine.state = .normalizing ∨ c.engine.state = .flooring ∨ c.engine.state = .lifting ∨
    c.engine.state = .armed → Registered c.tables.shadow
  leads : c.engine.state = .flooring ∨ c.engine.state = .lifting →
    ∀ k, c.engine.current = some k → k.leads = c.tables.shadow.leads
  weighed : c.engine.state = .flooring ∨ c.engine.state = .lifting ∨ c.engine.state = .armed →
    WeightsBalanced c.tables.shadow
  armed : c.engine.state = .armed → LiftsBalanced c.tables.shadow
  active : WeightsBalanced c.tables.active ∧ LiftsBalanced c.tables.active

theorem skyBalanced_iff (s : State) : SkyBalanced s ↔ PartBalanced (commitPart s) :=
  ⟨fun h => ⟨h.registered, h.walked, h.leads, h.weighed, h.armed, h.active⟩,
    fun h => ⟨h.registered, h.walked, h.leads, h.weighed, h.armed, h.active⟩⟩

section Phases

variable {b : Bank}

theorem poolOccupancy_congr {b' : Bank} (h : b'.points = b.points) : b'.poolOccupancy = b.poolOccupancy := by
  rw [← length_points, ← length_points, h]

/-- A bank that CHECKING passes is registered. -/
theorem registered_checked (h : (checkBank b).2 = none) : Registered (checkBank b).1 := by
  have hpool : b.poolOccupancy ≤ 2048 := by
    by_contra hfull
    have hlength : 2048 < b.points.length := (length_points b).symm ▸ Nat.lt_of_not_le hfull
    rw [checkBank, if_pos (Nat.lt_of_not_le hfull)] at h
    dsimp only at h
    rw [List.getElem?_eq_getElem hlength] at h
    cases h
  rw [checkBank_walks hpool] at h
  obtain ⟨hd, hlive, -⟩ := walkClaims_success _ _ h
  have hlive : ∀ q ∈ b.claims, (b.node q.channel q.node).isVoid = false := fun q hq => by
    have hq := (hlive q hq).1
    rwa [clearRefs_node] at hq
  rw [checkBank_passes hpool hd hlive]
  refine ⟨walked_of_distinct hd hlive, ?_⟩
  exact (poolOccupancy_congr ((writeNodes_points _ _).trans (mapNodes_points _ b))).trans_le hpool

theorem leads_congr {b' : Bank} (h : b'.points = b.points) : b'.leads = b.leads := by rw [Bank.leads, h, Bank.leads]

theorem registered_normalized (h : Registered b) : Registered b.normalized :=
  ⟨walked_normalized h.1, (poolOccupancy_congr (normalized_points b)).trans_le h.2⟩

theorem registered_lifted (leads : List Lead) (h : Registered b) : Registered (b.lifted leads) :=
  ⟨walked_lifted leads h.1, (poolOccupancy_congr (lifted_points b leads)).trans_le h.2⟩

theorem registered_floored (h : Registered b) : Registered b.floored :=
  ⟨walked_congr (b := b) rfl (fun _ _ => ⟨rfl, rfl⟩) h.1, h.2⟩

theorem weightsBalanced_lifted (leads : List Lead) (h : WeightsBalanced b) : WeightsBalanced (b.lifted leads) := by
  intro p hp
  rw [lifted_points] at hp
  refine Eq.trans (congrArg List.sum (List.map_congr_left fun m _ => ?_)) (h p hp)
  rw [lifted_node]

/-- A balanced point has members. -/
theorem members_of_weighed (h : WeightsBalanced b) : ∀ p ∈ b.points, p.members ≠ [] := by
  intro p hp hnil
  have hsum := h p hp
  rw [hnil] at hsum
  cases hsum

/-! #### The dark defaults -/

theorem dark_points : Bank.dark.points = [] := by decide

theorem dark_node (c : Channel) (i : Nat) : Bank.dark.node c i = Node.dark := by
  simp [Bank.node, Bank.dark, darkNode]

theorem dark_claims : Bank.dark.claims = [] := by rw [Bank.claims, dark_points]; rfl

theorem registered_dark : Registered Bank.dark := by
  refine ⟨⟨?_, fun q hq => ?_, fun c i _ => ?_⟩, ?_⟩
  · rw [dark_claims]
    exact List.nodup_nil
  · rw [dark_claims] at hq
    cases hq
  · rw [dark_node]
    rfl
  · rw [← length_points, dark_points]
    exact Nat.zero_le _

theorem balanced_dark : WeightsBalanced Bank.dark ∧ LiftsBalanced Bank.dark := by
  constructor <;>
  · intro p hp
    rw [dark_points] at hp
    cases hp

end Phases

/-- While the engine is in no phase past CHECKING, ACTIVE alone is to be balanced. -/
theorem partBalanced_early {c : CommitPart} (hactive : Registered c.tables.active)
    (hbalanced : WeightsBalanced c.tables.active ∧ LiftsBalanced c.tables.active)
    (hstate : c.engine.state = .idle ∨ c.engine.state = .applying ∨ c.engine.state = .checking) : PartBalanced c := by
  refine ⟨hactive, fun h => ?_, fun h => ?_, fun h => ?_, fun h => ?_, hbalanced⟩ <;>
    rcases hstate with hs | hs | hs <;> rw [hs] at h <;> simp at h

/-- Every transition keeps the sky balanced. -/
theorem commitMoves_balanced {s : State} {c : CommitPart} (hm : CommitMoves s c) (h : PartBalanced (commitPart s)) :
    PartBalanced c := by
  cases hm with
  | stays => exact h
  | discards => exact ⟨h.registered, h.walked, h.leads, h.weighed, h.armed, h.active⟩
  | admits => exact ⟨h.registered, h.walked, h.leads, h.weighed, h.armed, h.active⟩
  | turnsAway => exact ⟨h.registered, h.walked, h.leads, h.weighed, h.armed, h.active⟩
  | commits =>
    refine partBalanced_early ?_ ?_ (.inr (.inl rfl)) <;> simp only [commitPart, startCommit, active_setShadow]
    · exact h.registered
    · exact h.active
  | ends => exact partBalanced_early h.registered h.active (.inl rfl)
  | applies =>
    refine partBalanced_early ?_ ?_ (.inr (.inr rfl)) <;>
      simp only [commitPart, finishApplying, nextPhase, active_setShadow]
    · exact h.registered
    · exact h.active
  | checks _ hok =>
    have hchecked := registered_checked hok
    constructor <;> simp only [commitPart, nextPhase, active_setShadow, shadow_setShadow]
    case registered => exact h.registered
    case walked => exact fun _ => hchecked
    case active => exact h.active
    all_goals simp
  | checkFails =>
    refine partBalanced_early ?_ ?_ (.inl rfl) <;> simp only [active_setShadow]
    · exact h.registered
    · exact h.active
  | normalizes hk hz =>
    have hshadow : Registered s.tables.shadow := h.walked (.inl hk.2.1)
    have hpos := zeroPoint_eq_none.mp hz
    constructor <;> simp only [commitPart, nextPhase, active_setShadow, shadow_setShadow]
    case registered => exact h.registered
    case walked => exact fun _ => registered_normalized hshadow
    case leads =>
      intro _ k' hk'
      cases hk'
      exact (leads_congr (normalized_points _)).symm
    case weighed => exact fun _ => weightsBalanced_normalized hshadow.1 hpos
    case armed => simp
    case active => exact h.active
  | floors hk =>
    have hstate : s.engine.state = .flooring := hk.2.1
    constructor <;> simp only [commitPart, finishFlooring, nextPhase, active_setShadow, shadow_setShadow]
    case registered => exact h.registered
    case walked => exact fun _ => registered_floored (h.walked (.inr (.inl hstate)))
    case leads =>
      intro _ k' hk'
      cases hk'
      exact (h.leads (.inl hstate) _ hk.2.2 :)
    case weighed => exact fun _ => h.weighed (.inl hstate)
    case armed => simp
    case active => exact h.active
  | @lifts k k' e hk hstate' =>
    have hstate : s.engine.state = .lifting := hk.2.1
    have hshadow : Registered s.tables.shadow := h.walked (.inr (.inr (.inl hstate)))
    have hweighed : WeightsBalanced s.tables.shadow := h.weighed (.inr (.inl hstate))
    have hleads : k.leads = s.tables.shadow.leads := h.leads (.inr hstate) k hk.2.2
    constructor <;> simp only [active_setShadow, shadow_setShadow]
    case registered => exact h.registered
    case walked => exact fun _ => registered_lifted _ hshadow
    case leads => simp [hstate']
    case weighed => exact fun _ => weightsBalanced_lifted _ hweighed
    case armed =>
      intro _
      rw [hleads]
      exact liftsBalanced_lifted hshadow.1 (members_of_weighed hweighed)
    case active => exact h.active
  | swaps _ harmed =>
    refine partBalanced_early ?_ ?_ (.inl rfl) <;> simp only [active_swap]
    · exact h.walked (.inr (.inr (.inr harmed)))
    · exact ⟨h.weighed (.inr (.inr harmed)), h.armed harmed⟩
  | restarts =>
    refine partBalanced_early h.registered h.active (.inl ?_)
    unfold CommitEngine.restarted
    split
    · assumption
    · rfl
    · rfl
  | resets => exact partBalanced_early registered_dark balanced_dark (.inl rfl)

/-- Settles O58: by the transitions of the engine and the tables. -/
theorem skyStaysBalanced : Obligations.SkyStaysBalanced := by
  intro s t h hs
  exact step_keeps (P := SkyBalanced) (fun s q h => (skyBalanced_iff _).mpr ((skyBalanced_iff s).mp h))
    (fun s i t hm h => (skyBalanced_iff t).mpr (commitMoves_balanced (moves_commitMoves hm) ((skyBalanced_iff s).mp h))) hs h

end Sys2Proof.Proofs

/-! ### APPLYING_COMPLETES (R8, R9, R13, R14, R23, R24, R94) -/
namespace Sys2Proof.Proofs

open Sys2Proof.Machine

/-- A run of entries is written to consecutive nodes, each read before any other of the run can change it. -/
theorem applyNodes_node (c : Channel) (m : NodeMask) (es : List NodeEntry) (start : Nat) (b : Bank) (c' : Channel) (i : Nat) :
    (applyNodes c m start es b).node c' i =
      match (if c' = c ∧ start ≤ i then es[i - start]? else none) with
      | none => b.node c' i
      | some e => e.apply m (b.node c' i) := by
  induction es generalizing start b with
  | nil => simp [applyNodes]
  | cons e es ih =>
    rw [applyNodes, ih]
    by_cases hc : c' = c
    swap
    · simp [hc, Ne.symm hc]
    subst hc
    rcases Nat.lt_trichotomy i start with hlt | rfl | hgt
    · have h1 : ¬ start ≤ i := by omega
      have h2 : ¬ start + 1 ≤ i := by omega
      have h3 : start ≠ i := by omega
      simp [h1, h2, h3]
    · simp
    · have h1 : start ≤ i := by omega
      have h2 : start + 1 ≤ i := by omega
      have h3 : start ≠ i := by omega
      obtain ⟨j, hj⟩ : ∃ j, i - start = j + 1 := ⟨i - (start + 1), by omega⟩
      have hj' : i - (start + 1) = j := by omega
      simp [h1, h2, h3, hj, hj']

theorem applyNodes_frame (c : Channel) (m : NodeMask) (es : List NodeEntry) (start : Nat) (b : Bank) :
    applyNodes c m start es b = { b with grids := (applyNodes c m start es b).grids } := by
  induction es generalizing start b with
  | nil => rfl
  | cons e es ih => exact ih _ _

theorem colourIndex_inj : Function.Injective Colour.index := by
  intro k k'
  cases k <;> cases k' <;> simp [Colour.index]

theorem lutPlace_inj {c c' : Channel} {k k' : Colour} : lutPlace c k = lutPlace c' k' ↔ c = c' ∧ k = k' := by
  constructor
  · intro h
    have hval := congrArg Fin.val h
    simp only [lutPlace] at hval
    have hk := k.index.isLt
    have hk' := k'.index.isLt
    have hc : c = c' := Fin.ext (by omega)
    subst hc
    have hindex : k.index = k'.index := Fin.ext (by omega)
    exact ⟨rfl, colourIndex_inj hindex⟩
  · rintro ⟨rfl, rfl⟩
    rfl

theorem exec_applyingCompletes {s : State} {k : CurrentCommit} (h : PhaseAt s .applying k) :
    exec .applyingCompletes s = .next (finishApplying k s) := completePhase_at h _

theorem outputEntry_applied (b : Bank) (c c' : Channel) (k k' : Colour) (start e : Nat) (vs : List Nat) :
    ((Edit.lut (.output c k) start vs).apply b).outputEntry c' k' e =
      if c' = c ∧ k' = k ∧ start ≤ e then vs.getD (e - start) (b.outputEntry c' k' e) else b.outputEntry c' k' e := by
  simp only [Bank.outputEntry, Edit.apply, Fin.getElem_fin, getElem_upd]
  by_cases hplace : c' = c ∧ k' = k
  · obtain ⟨rfl, rfl⟩ := hplace
    simp [Table.get_setRun]
  · have hne : (lutPlace c k).val ≠ (lutPlace c' k').val := fun h =>
      hplace ((lutPlace_inj.mp (Fin.ext h)).imp Eq.symm Eq.symm)
    rw [if_neg hne, if_neg fun h => hplace ⟨h.1, h.2.1⟩]

/-- Settles O18: the marked records in queue order, and each kind of record by itself. -/
theorem applyingWritesTheMarkedRecords : Obligations.ApplyingWritesTheMarkedRecords := by
  refine ⟨?phase, ?nodes, fun _ _ _ => ⟨rfl, rfl⟩, fun _ _ _ _ => rfl, fun _ _ _ _ _ => rfl, ?input, ?output⟩
  case phase =>
    intro s k h
    rw [exec_applyingCompletes h, finishApplying, nextPhase, ← h.2.2, Staging.marked, markedCount_eq_markCount]
    rfl
  case nodes =>
    intro b c start m es
    exact ⟨_, applyNodes_frame c m es start b, fun c' i => applyNodes_node c m es start b c' i⟩
  case input =>
    intro b start vs
    exact ⟨_, rfl, fun e => Table.get_setRun _ vs _ start e⟩
  case output =>
    intro b c k start vs
    exact ⟨_, rfl, fun c' k' e => outputEntry_applied b c c' k k' start e vs⟩

end Sys2Proof.Proofs

/-! ### The banks stay in range (R4, R5, R9, R11 to R14, R19, R41, R42, R48)

A bank in canonical form is judged node by node; every write of a commit goes to a node of the grid and keeps it in range. -/
namespace Sys2Proof.Proofs

open Sys2Proof.Machine

/-- Every node lies in its ranges, and those past the grid are dark. -/
def NodesOk (b : Bank) : Prop := ∀ (c : Channel) (i : Nat), nodeOk (b.node c i) ∧ (1066 ≤ i → b.node c i = Node.dark)

/-- Every listed address lies below the size of the table, and every listed value within its limit. -/
def LutOk (size limit : Nat) (t : Table Nat) : Prop := ∀ e ∈ t.entries, e.1 < size ∧ e.2 ≤ limit

/-- The sky record lies in its ranges, and H is 65535 − Φ (R14, R41, R42). -/
def SkyOk (r : SkyRecord) : Prop := r.phiSet ≤ 16383 ∧ r.tau ≤ 64 ∧ r.phi ≤ 16383 ∧ r.headroom = 65535 - r.phi

/-- What of a bank the writes of nodes leave alone. -/
structure RestOk (b : Bank) : Prop where
  records : ∀ c : Channel, recordOk b.records[c]
  inputLut : LutOk 1024 65535 b.inputLut
  outputLuts : ∀ i : Fin 36, LutOk 1025 1023 b.outputLuts[i]
  seams : ∀ i : SeamId, ∀ m, b.seams[i] = some m → seamOk m
  sky : SkyOk b.sky

theorem nodeOk_dark : nodeOk Node.dark := by simp [nodeOk, Node.dark]

theorem bankOk_iff (b : Bank) : BankOk b ↔ b.wf = true ∧ NodesOk b ∧ RestOk b := by
  constructor
  · intro h
    refine ⟨h.canonical, fun c i => ⟨?_, fun hi => ?_⟩, h.records, h.inputLut, h.outputLuts, h.seams, h.sky⟩
    · exact Bank.node_of_entries b c i nodeOk_dark fun e he _ => (h.nodes c e he).2
    · refine Bank.node_of_entries (P := fun n => n = Node.dark) b c i rfl fun e he hei => ?_
      have hlt := (h.nodes c e he).1
      omega
  · rintro ⟨hwf, hnodes, hrest⟩
    refine ⟨hwf, fun c e he => ?_, hrest.records, hrest.inputLut, hrest.outputLuts, hrest.seams, hrest.sky⟩
    obtain ⟨i, n⟩ := e
    obtain ⟨hget, hne⟩ := (mem_entries_iff (grid_wf hwf c)).mp he
    obtain ⟨hok, hpast⟩ := hnodes c i
    have hnode : b.node c i = n := hget
    rw [hnode] at hok hpast
    exact ⟨Nat.lt_of_not_le fun hi => hne (hpast hi), hok⟩

/-- Banks that differ in their grids alone. -/
theorem bankOk_grids {b b' : Bank} (hb : b' = { b with grids := b'.grids }) (h : BankOk b) (hwf : b'.wf = true)
    (hnodes : NodesOk b') : BankOk b' := by
  obtain ⟨-, -, hrest⟩ := (bankOk_iff b).mp h
  refine (bankOk_iff b').mpr ⟨hwf, hnodes, ?_⟩
  rw [hb]
  exact ⟨hrest.records, hrest.inputLut, hrest.outputLuts, hrest.seams, hrest.sky⟩

section Nodes

variable {b : Bank}

theorem nodesOk_setNode {c : Channel} {i : Nat} {n : Node} (h : NodesOk b) (hi : i < 1066) (hn : nodeOk n) :
    NodesOk (b.setNode c i n) := by
  intro c' j
  rw [Bank.node_setNode]
  split
  · rename_i hplace
    exact ⟨hn, fun hj => absurd hj (by omega)⟩
  · exact h c' j

theorem bankOk_setNode {c : Channel} {i : Nat} {n : Node} (h : BankOk b) (hi : i < 1066) (hn : nodeOk n) :
    BankOk (b.setNode c i n) := by
  obtain ⟨hwf, hnodes, -⟩ := (bankOk_iff b).mp h
  exact bankOk_grids rfl h (Bank.wf_setNode b c i n hwf) (nodesOk_setNode hnodes hi hn)

theorem bankOk_mapNodes {f : Channel → Node → Node} (h : BankOk b) (hdark : ∀ c, f c Node.dark = Node.dark)
    (hf : ∀ c n, nodeOk n → nodeOk (f c n)) : BankOk (b.mapNodes f) := by
  obtain ⟨hwf, hnodes, -⟩ := (bankOk_iff b).mp h
  refine bankOk_grids rfl h (Bank.wf_mapNodes b f hwf) fun c i => ?_
  obtain ⟨hok, hpast⟩ := hnodes c i
  rw [Bank.node_mapNodes b f c i (hdark c)]
  exact ⟨hf c _ hok, fun hi => by rw [hpast hi, hdark]⟩

theorem bankOk_writeNodes {ws : List NodeWrite} (h : BankOk b)
    (hw : ∀ w ∈ ws, w.node < 1066 ∧ ∀ n, nodeOk n → nodeOk (w.change n)) : BankOk (writeNodes ws b) := by
  induction ws generalizing b with
  | nil => exact h
  | cons w ws ih =>
    obtain ⟨hi, hchange⟩ := hw w List.mem_cons_self
    have hnode := (((bankOk_iff b).mp h).2.1 w.channel w.node).1
    exact ih (bankOk_setNode h hi (hchange _ hnode)) fun v hv => hw v (List.mem_cons_of_mem _ hv)

/-- Every member of a point of a sound bank is a node of the grid. -/
theorem members_inGrid (h : BankOk b) {p : PointAt} (hp : p ∈ b.points) {m : Channel × MemberEntry} (hm : m ∈ p.members) :
    m.2.node < 1066 := by
  obtain ⟨seam, es, hseam, hes, hmembers⟩ := mem_points.mp hp
  obtain ⟨hlt, hget⟩ := List.getElem?_eq_some_iff.mp hseam
  rw [Vector.getElem_toList] at hget
  obtain ⟨-, -, -, -, -, hpoints⟩ := h.seams ⟨p.seam, by simpa using hlt⟩ seam hget
  rw [hmembers] at hm
  exact ((hpoints es (List.mem_of_getElem? hes)).2 m.2 (List.of_mem_zip hm).2).1

end Nodes

/-! #### The phases -/

section Phases

variable {b : Bank}

theorem bankOk_clearRefs (h : BankOk b) : BankOk b.clearRefs := bankOk_mapNodes h (fun _ => rfl) fun _ _ hn => hn

theorem bankOk_walkClaims {qs : List Claim} (h : BankOk b) (hq : ∀ q ∈ qs, q.node < 1066) :
    BankOk (walkClaims qs b).1 := by
  induction qs generalizing b with
  | nil => exact h
  | cons q qs ih =>
    simp only [walkClaims]
    split
    · exact h
    split
    · exact h
    · have hnode := (((bankOk_iff b).mp h).2.1 q.channel q.node).1
      exact ih (bankOk_setNode h (hq q List.mem_cons_self) hnode) fun r hr => hq r (List.mem_cons_of_mem _ hr)

theorem bankOk_checkBank (h : BankOk b) : BankOk (checkBank b).1 := by
  unfold checkBank
  split
  · exact h
  · refine bankOk_walkClaims (bankOk_clearRefs h) fun q hq => ?_
    obtain ⟨p, hp, m, hm, rfl⟩ := mem_claims.mp hq
    exact members_inGrid h hp hm

/-- A value among the final shares is at most 4096 (R33). -/
theorem finalShares_le {tau : Nat} {rs : List Nat} {w : Nat} (hw : w ∈ finalShares tau rs) : w ≤ 4096 := by
  rcases List.mem_or_eq_of_mem_set hw with hflushed | rfl
  · obtain ⟨r, hr, rfl⟩ := List.mem_map.mp hflushed
    split
    · exact Nat.zero_le _
    · exact share_le hr
  · exact Nat.sub_le _ _

theorem bankOk_normalized (h : BankOk b) : BankOk b.normalized := by
  rw [normalized_eq]
  refine bankOk_writeNodes (bankOk_mapNodes h (fun _ => rfl) fun _ n hn => ?_) fun w hw => ?_
  · obtain ⟨hu, hu', hv, hv', hbase, hweight, hlift⟩ := hn
    refine ⟨hu, hu', hv, hv', hbase, ?_, hlift⟩
    simp only [Node.withBaseWeight]
    split
    · exact Nat.zero_le _
    · exact hbase
  · obtain ⟨p, hp, hw⟩ := List.mem_flatMap.mp hw
    obtain ⟨⟨m, v⟩, hmv, rfl⟩ := List.mem_map.mp hw
    obtain ⟨hm, hv⟩ := List.of_mem_zip hmv
    exact ⟨members_inGrid h hp hm, fun n ⟨h1, h2, h3, h4, h5, _, h7⟩ => ⟨h1, h2, h3, h4, h5, finalShares_le hv, h7⟩⟩

theorem mem_liftShares_le {d n lead v : Nat} (hv : v ∈ liftShares d n lead) : v ≤ d := by
  rcases List.mem_or_eq_of_mem_set hv with hshare | rfl
  · rw [List.eq_of_mem_replicate hshare]
    exact Nat.div_le_self _ _
  · exact Nat.sub_le _ _

/-- A write of a lift gives at most Φ. -/
theorem lift_write_le {leads : List Lead} {w : NodeWrite} (hw : w ∈ pointWrites withLift (Bank.lifts b leads) b) :
    ∃ v, v ≤ b.sky.phi ∧ w.change = withLift v := by
  obtain ⟨p, hp, hw⟩ := List.mem_flatMap.mp hw
  obtain ⟨⟨m, v⟩, hmv, rfl⟩ := List.mem_map.mp hw
  exact ⟨v, (mem_liftShares_le (List.of_mem_zip hmv).2).trans (Nat.sub_le _ _), rfl⟩

theorem interiorLift_le (b : Bank) (c : Channel) (n : Node) : (b.interiorLift c n).lift ≤ b.sky.phi := by
  simp only [Bank.interiorLift]
  split
  · exact Nat.zero_le _
  · exact Nat.sub_le _ _

theorem bankOk_lifted (leads : List Lead) (h : BankOk b) : BankOk (b.lifted leads) := by
  have hphi : b.sky.phi ≤ 16383 := h.sky.2.2.1
  rw [lifted_eq]
  refine bankOk_writeNodes (bankOk_mapNodes h (fun _ => rfl) fun c n hn => ?_) fun w hw => ⟨?_, ?_⟩
  · obtain ⟨hu, hu', hv, hv', hbase, hweight, -⟩ := hn
    exact ⟨hu, hu', hv, hv', hbase, hweight, (interiorLift_le b c n).trans hphi⟩
  · obtain ⟨p, hp, m, hm, v, rfl⟩ := mem_pointWrites hw
    exact members_inGrid h hp hm
  · obtain ⟨v, hv, hchange⟩ := lift_write_le hw
    rw [hchange]
    exact fun n ⟨h1, h2, h3, h4, h5, h6, _⟩ => ⟨h1, h2, h3, h4, h5, h6, hv.trans hphi⟩

/-- Every lift of a lifted bank is within Φ (R48). -/
theorem liftsBounded_lifted (b : Bank) (leads : List Lead) : LiftsBounded (b.lifted leads) := by
  have hsky : (b.lifted leads).sky.phi = b.sky.phi := by rw [lifted_frame]
  intro c i
  rw [hsky, lifted_eq]
  refine writeNodes_keeps (P := fun n => n.lift ≤ b.sky.phi) (fun w hw n _ => ?_) (fun c i => ?_) c i
  · obtain ⟨v, hv, hchange⟩ := lift_write_le hw
    rw [hchange]
    exact hv
  · rw [interiorLifts_node]
    exact interiorLift_le b c _

/-- The black of a node is at most four times the largest β (R38). -/
theorem nodeBlack_le (h : BankOk b) (c : Channel) (n : Node) : b.nodeBlack c n ≤ 16383 := by
  have hbeta (c : Channel) : (b.records[c]).beta ≤ 4095 := (h.records c).2.2.2.2.1
  unfold Bank.nodeBlack
  split
  · exact (hbeta c).trans (by decide)
  · unfold Bank.seamBlackAt
    split
    · rename_i hid
      split
      · exact Nat.zero_le _
      · rename_i m hm
        obtain ⟨-, hfour, -⟩ := h.seams ⟨_, hid⟩ m hm
        calc b.seamBlack m ≤ (m.members.map fun c => (b.records[c]).beta).length • 4095 :=
              List.sum_le_card_nsmul _ _ fun v hv => by
                obtain ⟨c, -, rfl⟩ := List.mem_map.mp hv
                exact hbeta c
          _ ≤ 16383 := by
              rw [List.length_map, smul_eq_mul]
              omega
    · exact Nat.zero_le _

theorem floorValue_le (h : BankOk b) : b.floorValue ≤ 16383 := by
  unfold Bank.floorValue
  split
  · exact h.sky.1
  · rcases foldl_max_mem (b.liveNodes.map fun p => b.nodeBlack p.1 p.2) 0 with hzero | hmem
    · rw [hzero]
      exact Nat.zero_le _
    · obtain ⟨p, -, hp⟩ := List.mem_map.mp hmem
      rw [← hp]
      exact nodeBlack_le h p.1 p.2

theorem bankOk_floored (h : BankOk b) : BankOk b.floored :=
  ⟨h.canonical, h.nodes, h.records, h.inputLut, h.outputLuts, h.seams, h.sky.1, h.sky.2.1, floorValue_le h, rfl⟩

end Phases

theorem bankOk_dark : BankOk Bank.dark := by
  refine ⟨by decide, fun c e he => ?_, fun c => ?_, fun e he => ?_, fun i e he => ?_, fun i m hm => ?_, ?_⟩
  · simp [Bank.dark, Table.empty] at he
  · simp [Bank.dark, ChannelRecord.dark, recordOk]
  · simp [Bank.dark, Table.empty] at he
  · simp [Bank.dark, Table.empty] at he
  · simp [Bank.dark] at hm
  · simp [Bank.dark, SkyRecord.dark]

end Sys2Proof.Proofs

/-! ### Records in range (R8, R9, R13, R14, R19, R189)

What a staging request that passes its checks presents lies in range, and a record in range leaves a bank in range. -/
namespace Sys2Proof.Proofs

open Sys2Proof.Machine

/-! #### A record applied -/

section Apply

variable {b : Bank}

theorem mem_entries_set {α : Type} [DecidableEq α] {d : Nat → α} {t : Table α} {i : Nat} {v : α} {e : Nat × α}
    (he : e ∈ (t.set d i v).entries) : e = (i, v) ∨ e ∈ t.entries := by
  unfold Table.set at he
  split at he
  · exact .inr (List.mem_of_mem_filter he)
  · exact ((mem_insert _ _ _ _).mp he).imp_right List.mem_of_mem_filter

theorem lutOk_setRun {d : Nat → Nat} {size limit : Nat} {vs : List Nat} {start : Nat} {t : Table Nat}
    (h : LutOk size limit t) (hrun : start + vs.length ≤ size) (hvs : ∀ v ∈ vs, v ≤ limit) :
    LutOk size limit (t.setRun d start vs) := by
  induction vs generalizing start t with
  | nil => exact h
  | cons v vs ih =>
    have hlength : (v :: vs).length = vs.length + 1 := rfl
    refine ih (fun e he => ?_) (by omega) fun w hw => hvs w (List.mem_cons_of_mem _ hw)
    rcases mem_entries_set he with rfl | hold
    · exact ⟨by dsimp only; omega, hvs v List.mem_cons_self⟩
    · exact h e hold

theorem nodeOk_apply {e : NodeEntry} {m : NodeMask} {n : Node} (h : nodeOk n)
    (he : -32768 ≤ e.u ∧ e.u ≤ 32767 ∧ -32768 ≤ e.v ∧ e.v ≤ 32767 ∧ (m.baseWeight = true → e.baseWeight ≤ 4096)) :
    nodeOk (e.apply m n) := by
  obtain ⟨hu, hu', hv, hv', hbase, hweight, hlift⟩ := h
  obtain ⟨eu, eu', ev, ev', ebase⟩ := he
  exact ⟨iteInduction (motive := (-32768 ≤ ·)) (fun _ => eu) fun _ => hu,
    iteInduction (motive := (· ≤ 32767)) (fun _ => eu') fun _ => hu',
    iteInduction (motive := (-32768 ≤ ·)) (fun _ => ev) fun _ => hv,
    iteInduction (motive := (· ≤ 32767)) (fun _ => ev') fun _ => hv',
    iteInduction (motive := (· ≤ 4096)) ebase fun _ => hbase, hweight, hlift⟩

theorem bankOk_applyNodes {c : Channel} {m : NodeMask} {es : List NodeEntry} {start : Nat} (h : BankOk b)
    (hrun : start + es.length ≤ 1066)
    (hes : ∀ e ∈ es, -32768 ≤ e.u ∧ e.u ≤ 32767 ∧ -32768 ≤ e.v ∧ e.v ≤ 32767 ∧
      (m.baseWeight = true → e.baseWeight ≤ 4096)) :
    BankOk (applyNodes c m start es b) := by
  induction es generalizing start b with
  | nil => exact h
  | cons e es ih =>
    have hlength : (e :: es).length = es.length + 1 := rfl
    have hnode := (((bankOk_iff b).mp h).2.1 c start).1
    exact ih (bankOk_setNode h (by omega) (nodeOk_apply hnode (hes e List.mem_cons_self))) (by omega)
      fun e' he' => hes e' (List.mem_cons_of_mem _ he')

theorem recordOk_select {r v : ChannelRecord} {m : ChannelMask} (h : recordOk r)
    (hv : editOk (.channel 0 m v)) : recordOk (r.select m v) := by
  obtain ⟨hw, hw', hh, hh', hbeta, hr, hg, hb⟩ := h
  obtain ⟨hraster, hvbeta, hgains⟩ := hv
  simp only [recordOk, ChannelRecord.select]
  cases hmr : m.raster <;> cases hmb : m.beta <;> cases hmg : m.gains <;> simp_all

theorem wf_replaceLut {b' : Bank} (h : b.wf = true) (hg : b'.grids = b.grids)
    (hi : b'.inputLut.wf inputDefault = true) (ho : ∀ t ∈ b'.outputLuts.toList, Table.wf outputDefault t = true) :
    b'.wf = true := by
  simp only [Bank.wf, Bool.and_eq_true, List.all_eq_true] at h ⊢
  exact ⟨⟨hg ▸ h.1.1, hi⟩, ho⟩

/-- A record in range leaves a bank in range. -/
theorem bankOk_apply {e : Edit} (h : BankOk b) (he : editOk e) : BankOk (e.apply b) := by
  have hwf := h.canonical
  simp only [Bank.wf, Bool.and_eq_true, List.all_eq_true] at hwf
  obtain ⟨⟨-, hinput⟩, houtput⟩ := hwf
  cases e with
  | nodes c start m es => exact bankOk_applyNodes h he.1 he.2
  | seam id m =>
    refine ⟨h.canonical, h.nodes, h.records, h.inputLut, h.outputLuts, fun i m' hm' => ?_, h.sky⟩
    by_cases hi : id = i
    · subst hi
      have : some m = some m' := by simpa [Edit.apply] using hm'
      cases this
      exact he
    · exact h.seams i m' (by simpa [Edit.apply, Fin.val_ne_of_ne hi] using hm')
  | seamDrop id =>
    refine ⟨h.canonical, h.nodes, h.records, h.inputLut, h.outputLuts, fun i m' hm' => ?_, h.sky⟩
    by_cases hi : id = i
    · subst hi
      simp [Edit.apply] at hm'
    · exact h.seams i m' (by simpa [Edit.apply, Fin.val_ne_of_ne hi] using hm')
  | channel c m v =>
    refine ⟨h.canonical, h.nodes, fun c' => ?_, h.inputLut, h.outputLuts, h.seams, h.sky⟩
    by_cases hc : c = c'
    · subst hc
      simpa [Edit.apply] using recordOk_select (h.records c) he
    · simpa [Edit.apply, Fin.val_ne_of_ne hc] using h.records c'
  | floor m f phi tau =>
    refine ⟨h.canonical, h.nodes, h.records, h.inputLut, h.outputLuts, h.seams, ?_, ?_, h.sky.2.2.1, h.sky.2.2.2⟩ <;>
      simp only [Edit.apply, SkyRecord.select] <;> split
    · exact he.1 ‹_›
    · exact h.sky.1
    · exact he.2 ‹_›
    · exact h.sky.2.1
  | lut t start vs =>
    cases t with
    | input =>
      exact ⟨wf_replaceLut h.canonical rfl (Table.wf_setRun _ vs _ start hinput) houtput, h.nodes, h.records,
        lutOk_setRun h.inputLut he.1 he.2, h.outputLuts, h.seams, h.sky⟩
    | output c k =>
      refine ⟨wf_replaceLut h.canonical rfl hinput fun t ht => ?_, h.nodes, h.records, h.inputLut, fun i => ?_, h.seams,
        h.sky⟩
      · obtain ⟨j, hj, rfl⟩ := Vector.getElem_of_mem (Vector.mem_toList_iff.mp ht)
        have hold : Table.wf outputDefault b.outputLuts[j] = true := houtput _ (by simp)
        simp only [Edit.apply, getElem_upd]
        split
        · rename_i hj'
          subst hj'
          exact Table.wf_setRun _ vs _ start hold
        · exact hold
      · by_cases hi : lutPlace c k = i
        · subst hi
          have hsame : ((Edit.lut (.output c k) start vs).apply b).outputLuts[lutPlace c k] =
              b.outputLuts[lutPlace c k].setRun outputDefault start vs := by simp [Edit.apply]
          rw [hsame]
          exact lutOk_setRun (h.outputLuts (lutPlace c k)) he.1 he.2
        · simpa [Edit.apply, Fin.val_ne_of_ne hi] using h.outputLuts i

theorem bankOk_applyRecords {rs : List EditRecord} (h : BankOk b) (hrs : ∀ r ∈ rs, editOk r.edit) :
    BankOk (applyRecords rs b) := by
  induction rs generalizing b with
  | nil => exact h
  | cons r rs ih =>
    exact ih (bankOk_apply h (hrs r List.mem_cons_self)) fun q hq => hrs q (List.mem_cons_of_mem _ hq)

end Apply

/-! #### A request checked -/

theorem u8_lt (p : List Byte) (i : Nat) : u8 p i < 256 := BitVec.isLt _

theorem u16_lt (p : List Byte) (i : Nat) : u16 p i < 65536 := by
  have := u8_lt p i
  have := u8_lt p (i + 1)
  unfold u16
  omega

theorem s16_inRange (p : List Byte) (i : Nat) : -32768 ≤ s16 p i ∧ s16 p i ≤ 32767 := by
  have := u16_lt p i
  unfold s16
  split <;> omega

theorem mapM_chan?_eq_some {ns : List Nat} {ms : List Channel} : ns.mapM chan? = some ms ↔ ms.map Fin.val = ns := by
  induction ns generalizing ms with
  | nil => cases ms <;> simp
  | cons n ns ih =>
    rw [List.mapM_cons]
    simp only [Option.bind_eq_bind, Option.pure_def, Option.bind_eq_some_iff, chan?_eq_some, ih, Option.some.injEq]
    constructor
    · rintro ⟨c, rfl, cs, rfl, rfl⟩
      rfl
    · intro h
      obtain ⟨c, cs, rfl, hc, hcs⟩ := List.map_eq_cons_iff.mp h
      exact ⟨c, hc.symm, cs, hcs, rfl⟩

/-- The member list of STAGE_SEAM: channels, no two equal, with the numbers sent (R21). -/
theorem membersOf?_eq_some {ns : List Nat} {ms : List Channel} :
    membersOf? ns = some ms ↔ ns.Nodup ∧ ms.map Fin.val = ns := by
  unfold membersOf?
  split
  · rename_i hd
    rw [mapM_chan?_eq_some]
    exact (and_iff_right hd).symm
  · rename_i hd
    exact iff_of_false (by simp) fun h => hd h.1

section Checks

variable {s : State} {l : Link} {p : List Byte} {e : Edit} {clamped : Bool}

theorem nodeEntriesOf_ok (p : List Byte) : ∀ e ∈ nodeEntriesOf p,
    -32768 ≤ e.u ∧ e.u ≤ 32767 ∧ -32768 ≤ e.v ∧ e.v ≤ 32767 ∧
      ((nodeMaskOf p).baseWeight = true → e.baseWeight ≤ 4096) := by
  intro e he
  obtain ⟨i, -, rfl⟩ := List.mem_map.mp he
  refine ⟨(s16_inRange _ _).1, (s16_inRange _ _).2, (s16_inRange _ _).1, (s16_inRange _ _).2, fun hm => ?_⟩
  rw [nodeEntryAt, if_pos hm]
  exact Nat.min_le_left _ _

theorem length_nodeEntriesOf (p : List Byte) : (nodeEntriesOf p).length = u8 p 3 := by simp [nodeEntriesOf]

theorem length_lutValuesOf (t : LutTarget) (p : List Byte) : (lutValuesOf t p).length = u16 p 3 := by simp [lutValuesOf]

/-- What a staging request that passes its checks presents lies in range. -/
theorem stagingCheck_editOk {i : Instr} (h : stagingCheck s p i = some (.ok (e, clamped))) : editOk e := by
  cases i with
  | stageNodes =>
    obtain ⟨c, -, hrun, rfl⟩ := checkStageNodes_ok (Option.some.inj h)
    exact ⟨(length_nodeEntriesOf p).symm ▸ hrun, nodeEntriesOf_ok p⟩
  | stageSeam =>
    obtain ⟨id, ms, hms, hcount, hpoints, hnodes, -, rfl⟩ := checkStageSeam_ok (Option.some.inj h)
    obtain ⟨hd, hmap⟩ := membersOf?_eq_some.mp hms
    have hlength : ms.length = u8 p 1 := by
      have hl := congrArg List.length hmap
      simpa [seamMembersOf] using hl
    refine ⟨hlength ▸ hcount.1, hlength ▸ hcount.2, List.Nodup.of_map _ (hmap.symm ▸ hd), by simpa [seamPointsOf] using hpoints.1,
      by simpa [seamPointsOf] using hpoints.2, fun q hq => ⟨?_, fun n hn => ⟨hnodes q hq n hn, ?_⟩⟩⟩
    · obtain ⟨i, -, rfl⟩ := List.mem_map.mp hq
      simp [hlength]
    · obtain ⟨i, -, rfl⟩ := List.mem_map.mp hq
      obtain ⟨j, -, rfl⟩ := List.mem_map.mp hn
      exact Nat.le_of_lt_succ (u16_lt p _)
  | dropSeam =>
    obtain ⟨id, rfl⟩ := checkDropSeam_ok (Option.some.inj h)
    trivial
  | stageChannel =>
    obtain ⟨c, -, hraster, rfl⟩ := checkStageChannel_ok (Option.some.inj h)
    refine ⟨fun hm => of_decide_eq_true (hraster hm), fun hm => ?_, fun hm => ?_⟩
    · simp [channelValuesOf, hm]
    · simp [channelValuesOf, hm]
  | stageFloor =>
    obtain ⟨-, hedit⟩ := checkStageFloor_ok (Option.some.inj h)
    obtain ⟨f, rfl⟩ := floorEditOf?_eq_some hedit
    exact ⟨fun hm => by rw [if_pos hm]; exact Nat.min_le_left _ _, fun hm => by rw [if_pos hm]; exact Nat.min_le_left _ _⟩
  | stageLut =>
    obtain ⟨t, -, hrun, rfl⟩ := checkStageLut_ok (Option.some.inj h)
    cases t with
    | input =>
      refine ⟨(length_lutValuesOf _ p).symm ▸ hrun, fun v hv => ?_⟩
      obtain ⟨i, -, rfl⟩ := List.mem_map.mp hv
      exact Nat.le_of_lt_succ (u16_lt p _)
    | output c k =>
      refine ⟨(length_lutValuesOf _ p).symm ▸ hrun, fun v hv => ?_⟩
      obtain ⟨i, -, rfl⟩ := List.mem_map.mp hv
      exact Nat.min_le_left _ _
  | _ => cases h

end Checks

end Sys2Proof.Proofs

/-! ### Every code is at most 1023 (R61 to R72)

Content, weight, gain and fade each scale a light no higher; the headroom is what Φ leaves of full light, and the lift is
within Φ: the linear output stays within full light, so the output LUT is read within its table. -/
namespace Sys2Proof.Proofs

open Sys2Proof.Machine

/-! #### The linear output -/

theorem blend_le {fu fv n : Nat} {l : Corners Nat} (hu : fu ≤ 16) (hv : fv ≤ 16) (h00 : l.q00 ≤ n) (h10 : l.q10 ≤ n)
    (h01 : l.q01 ≤ n) (h11 : l.q11 ≤ n) : blend fu fv l ≤ n := by
  have hsum := sum_coefficients hu hv
  have hweighted : (coefficients 16 fu fv).q00 * l.q00 + (coefficients 16 fu fv).q10 * l.q10 +
      (coefficients 16 fu fv).q01 * l.q01 + (coefficients 16 fu fv).q11 * l.q11 ≤ 256 * n := by
    calc _ ≤ (coefficients 16 fu fv).q00 * n + (coefficients 16 fu fv).q10 * n +
          (coefficients 16 fu fv).q01 * n + (coefficients 16 fu fv).q11 * n := by gcongr
      _ = 256 * n := by rw [← Nat.add_mul, ← Nat.add_mul, ← Nat.add_mul, hsum]
  unfold blend
  dsimp only
  omega

theorem scaled_le {light factor : Nat} (h : factor ≤ 4096) : scaled light factor ≤ light := by
  have hmul : light * factor ≤ light * 4096 := Nat.mul_le_mul_left light h
  unfold scaled
  omega

theorem linearOut_le {l weight gain fade lift headroom phi : Nat} (hl : l ≤ 65535) (hweight : weight ≤ 4096)
    (hgain : gain ≤ 4096) (hfade : fade ≤ 4096) (hlift : lift ≤ phi) (hheadroom : headroom = 65535 - phi)
    (hphi : phi ≤ 16383) : linearOut l weight gain fade lift headroom ≤ 65535 := by
  have hlight : scaled (scaled (scaled l weight) gain) fade ≤ 65535 :=
    (scaled_le hfade).trans ((scaled_le hgain).trans ((scaled_le hweight).trans hl))
  have hmul := Nat.mul_le_mul_right headroom hlight
  unfold linearOut
  omega

/-- The output LUT read between two entries of its table (R72). -/
theorem encodeThrough_le {entry : Nat → Nat} {o : Nat} (ho : o ≤ 65535) (h : ∀ e, e < 1025 → entry e ≤ 1023) :
    encodeThrough entry o ≤ 1023 := by
  have hlow := h (o / 64) (by omega)
  have hhigh := h (o / 64 + 1) (by omega)
  have hmod : 64 - o % 64 + o % 64 = 64 := by omega
  have hweighted : entry (o / 64) * (64 - o % 64) + entry (o / 64 + 1) * (o % 64) ≤ 1023 * 64 := by
    calc _ ≤ 1023 * (64 - o % 64) + 1023 * (o % 64) := by gcongr
      _ = 1023 * 64 := by rw [← Nat.mul_add, hmod]
  unfold encodeThrough
  omega

/-! #### The tables -/

/-- A lookup table in range reads within its limit, listed or not. -/
theorem lut_get_le {size limit i : Nat} {d : Nat → Nat} {t : Table Nat} (h : LutOk size limit t) (hd : d i ≤ limit) :
    t.get d i ≤ limit := by
  obtain ⟨l⟩ := t
  simp only [Table.get, LutOk] at h ⊢
  induction l with
  | nil => exact hd
  | cons e l ih =>
    obtain ⟨k, v⟩ := e
    simp only [getEntry]
    split
    · exact (h (k, v) List.mem_cons_self).2
    · exact ih fun e he => h e (List.mem_cons_of_mem _ he)

theorem outputEntry_le {b : Bank} (h : BankOk b) (c : Channel) (k : Colour) {e : Nat} (he : e < 1025) :
    b.outputEntry c k e ≤ 1023 := by
  refine lut_get_le (h.outputLuts (lutPlace c k)) ?_
  unfold outputDefault
  split <;> omega

theorem inputEntry_le {b : Bank} (h : BankOk b) {e : Nat} (he : e < 1024) : b.inputEntry e ≤ 65535 := by
  refine lut_get_le h.inputLut ?_
  unfold inputDefault
  omega

theorem code_lt (p : Pixel) (k : Colour) : Pixel.code p k < 1024 := by
  cases k
  · exact p.r.isLt
  · exact p.g.isLt
  · exact p.b.isLt

theorem content_le {b : Bank} (h : BankOk b) (f : FrameBank) (ctx : FrameContext) (r : ChannelRecord) (p : Sample)
    (k : Colour) : content b f ctx r p k ≤ 65535 := by
  unfold content
  split
  · exact Nat.zero_le _
  · exact blend_le (Nat.mod_lt _ (by decide)).le (Nat.mod_lt _ (by decide)).le (inputEntry_le h (code_lt _ k))
      (inputEntry_le h (code_lt _ k)) (inputEntry_le h (code_lt _ k)) (inputEntry_le h (code_lt _ k))

/-- An interpolated quantity of nodes is within what bounds each of them. -/
theorem interpolate_nat_le {q : Corners Node} {f : Node → Nat} {n : Nat} (x y : Nat) (h00 : f q.q00 ≤ n)
    (h10 : f q.q10 ≤ n) (h01 : f q.q01 ≤ n) (h11 : f q.q11 ≤ n) :
    (interpolate x y (q.mapAll fun m => (f m : Int))).toNat ≤ n := by
  have hle := interpolate_le x y (q := q.mapAll fun m => (f m : Int)) (hi := n) (by simpa [Corners.mapAll])
    (by simpa [Corners.mapAll]) (by simpa [Corners.mapAll]) (by simpa [Corners.mapAll])
  omega

section Path

variable {b : Bank} (h : BankOk b) (hlifts : LiftsBounded b)

include h hlifts

theorem pathCode_le (f : FrameBank) {ctx : FrameContext} (hfade : ctx.fade ≤ 4096) (c : Channel) (x y : Nat) (k : Colour) :
    pathCode b f ctx c (sampleAt (cornerNodes b c x y) x y) k ≤ 1023 := by
  have hnodes := ((bankOk_iff b).mp h).2.1
  have hweight (i : Nat) : (b.node c i).weight ≤ 4096 := by
    obtain ⟨-, -, -, -, -, hw, -⟩ := (hnodes c i).1
    exact hw
  have hgain : (b.records[c]).gain k ≤ 4096 := by
    obtain ⟨-, -, -, -, -, hr, hg, hb⟩ := h.records c
    cases k
    · exact hr
    · exact hg
    · exact hb
  refine encodeThrough_le (linearOut_le (content_le h f ctx _ _ k) ?_ hgain hfade ?_ h.sky.2.2.2 h.sky.2.2.1) fun e he =>
    outputEntry_le h c k he
  · exact interpolate_nat_le (f := Node.weight) x y (hweight _) (hweight _) (hweight _) (hweight _)
  · exact interpolate_nat_le (f := Node.lift) x y (hlifts c _) (hlifts c _) (hlifts c _) (hlifts c _)

/-- The codes of the sky path (R72). -/
theorem skyPath_le (f : FrameBank) {ctx : FrameContext} (hfade : ctx.fade ≤ 4096) (c : Channel) (x y : Nat) :
    (skyPath b f ctx c x y).r ≤ 1023 ∧ (skyPath b f ctx c x y).g ≤ 1023 ∧ (skyPath b f ctx c x y).b ≤ 1023 := by
  unfold skyPath
  dsimp only
  split
  · decide
  · exact ⟨pathCode_le h hlifts f hfade c x y .r, pathCode_le h hlifts f hfade c x y .g,
      pathCode_le h hlifts f hfade c x y .b⟩

end Path

end Sys2Proof.Proofs

/-! ### The picture stays sound (R5, R48, R54, R71, R72) -/
namespace Sys2Proof.Proofs

open Sys2Proof.Machine

/-! #### The tables and the queue -/

/-- Both banks and the records queued in range, the lifts of ACTIVE and of an ARMED SHADOW within Φ. -/
structure TablesSound (c : CommitPart) : Prop where
  active : BankOk c.tables.active
  shadow : BankOk c.tables.shadow
  queued : ∀ r ∈ c.staging.records, editOk r.edit
  lifts : LiftsBounded c.tables.active
  armed : c.engine.state = .armed → LiftsBounded c.tables.shadow

theorem banksOk_iff (t : TableStore) :
    BankOk t.active ∧ BankOk t.shadow ↔ BankOk t.bankA ∧ BankOk t.bankB := by
  obtain ⟨bankA, bankB, activeIsB⟩ := t
  cases activeIsB
  · exact Iff.rfl
  · exact and_comm

theorem liftsBounded_dark : LiftsBounded Bank.dark := fun c i => by
  rw [dark_node]
  exact Nat.zero_le _

/-- The tables stay sound where SHADOW goes to a bank in range and no commit is armed by it. -/
theorem tablesSound_shadow {q : Staging} {e : CommitEngine} {t : TableStore} {b : Bank} (ha : BankOk t.active)
    (hl : LiftsBounded t.active) (hq : ∀ r ∈ q.records, editOk r.edit) (hb : BankOk b)
    (harmed : e.state = .armed → LiftsBounded b) : TablesSound ⟨q, e, t.setShadow b⟩ := by
  constructor <;> simp only [active_setShadow, shadow_setShadow]
  case active => exact ha
  case shadow => exact hb
  case queued => exact hq
  case lifts => exact hl
  case armed => exact harmed

/-- Every transition keeps the tables sound. -/
theorem commitMoves_tables {s : State} {c : CommitPart} (hm : CommitMoves s c) (h : TablesSound (commitPart s))
    (hp : ∀ (l : Link) (q : Presented), s.ports[l].inProcess = some q → editOk q.record.edit) : TablesSound c := by
  have hqueued : ∀ r ∈ c.staging.records, editOk r.edit := fun r hr => by
    rcases commitMoves_records hm hr with hold | ⟨l, q, hq, rfl⟩
    · exact h.queued r hold
    · exact hp l q hq
  have hactive : BankOk s.tables.active := h.active
  have hshadow : BankOk s.tables.shadow := h.shadow
  have hlifts : LiftsBounded s.tables.active := h.lifts
  cases hm with
  | stays => exact h
  | discards => exact ⟨hactive, hshadow, hqueued, hlifts, h.armed⟩
  | admits => exact ⟨hactive, hshadow, hqueued, hlifts, h.armed⟩
  | turnsAway => exact ⟨hactive, hshadow, hqueued, hlifts, h.armed⟩
  | commits => exact tablesSound_shadow hactive hlifts hqueued hactive fun ha => by simp [startCommit] at ha
  | ends => exact ⟨hactive, hshadow, hqueued, hlifts, fun ha => by cases ha⟩
  | applies =>
    exact tablesSound_shadow hactive hlifts hqueued
      (bankOk_applyRecords hshadow fun r hr => h.queued r (List.mem_of_mem_take hr)) fun ha => by cases ha
  | checks => exact tablesSound_shadow hactive hlifts hqueued (bankOk_checkBank hshadow) fun ha => by cases ha
  | checkFails => exact tablesSound_shadow hactive hlifts hqueued (bankOk_checkBank hshadow) fun ha => by cases ha
  | normalizes => exact tablesSound_shadow hactive hlifts hqueued (bankOk_normalized hshadow) fun ha => by cases ha
  | floors => exact tablesSound_shadow hactive hlifts hqueued (bankOk_floored hshadow) fun ha => by cases ha
  | lifts =>
    exact tablesSound_shadow hactive hlifts hqueued (bankOk_lifted _ hshadow) fun _ => liftsBounded_lifted _ _
  | swaps _ harmed =>
    refine ⟨?_, ?_, hqueued, ?_, fun ha => by cases ha⟩ <;> simp only [active_swap, shadow_swap]
    · exact hshadow
    · exact hactive
    · exact h.armed harmed
  | restarts =>
    have hidle : s.engine.restarted.state = .idle := by
      unfold CommitEngine.restarted
      split
      · assumption
      · rfl
      · rfl
    exact ⟨hactive, hshadow, hqueued, hlifts, fun ha => by cases hidle.symm.trans ha⟩
  | resets =>
    exact ⟨bankOk_dark, ((banksOk_iff s.tables).mp ⟨hactive, hshadow⟩).2, hqueued, liftsBounded_dark, fun ha => by cases ha⟩

/-! #### The frames in progress -/

/-- The frames in progress are drawn from ACTIVE, F and the fade of each within full scale, every code in range. -/
structure EnginesSound (s : State) : Prop where
  contexts : ∀ (c : Channel) (x : FrameContext), s.engines[c].context = some x →
    x.bankIsB = s.tables.activeIsB ∧ x.fade ≤ 4096
  fade : s.fade.level ≤ 4096 ∧ s.fade.target ≤ 4096
  codes : ∀ c : Channel, s.engines[c].out.r ≤ 1023 ∧ s.engines[c].out.g ≤ 1023 ∧ s.engines[c].out.b ≤ 1023

theorem pictureSound_iff (s : State) : PictureSound s ↔ TablesSound (commitPart s) ∧
    (∀ (l : Link) (q : Presented), s.ports[l].inProcess = some q → editOk q.record.edit) ∧ EnginesSound s := by
  constructor
  · intro h
    obtain ⟨hactive, hshadow⟩ := (banksOk_iff s.tables).mpr ⟨h.bankA, h.bankB⟩
    exact ⟨⟨hactive, hshadow, h.queued, h.active, h.armed⟩, h.presented, h.contexts, h.fade, h.codes⟩
  · rintro ⟨ht, hp, he⟩
    obtain ⟨hA, hB⟩ := (banksOk_iff s.tables).mp ⟨ht.active, ht.shadow⟩
    exact ⟨hA, hB, ht.queued, hp, ht.lifts, ht.armed, he.contexts, he.fade, he.codes⟩

section Engines

variable {s t : State} {i : Instr}

theorem enginesSound_congr (h : EnginesSound s) (he : t.engines = s.engines) (hf : t.fade = s.fade)
    (ha : t.tables.activeIsB = s.tables.activeIsB) : EnginesSound t := by
  refine ⟨?_, ?_, ?_⟩
  · rw [he, ha]
    exact h.contexts
  · rw [hf]
    exact h.fade
  · rw [he]
    exact h.codes

/-- A frame start fixes every context from ACTIVE as it leaves it (R54). -/
theorem frameStart_engines (race : FrameRace) (s : State) (c : Channel) :
    ∃ x : FrameContext, (frameStart race s).engines[c].context = some x ∧
      x.bankIsB = (frameStart race s).tables.activeIsB ∧ x.fade = (frameStart race s).fade.level ∧
      (frameStart race s).engines[c].out = s.engines[c].out := by
  have hblocks : (blocksAfter (decision s) (receiverTurns race (decision s) s) s).engines = s.engines := by
    unfold blocksAfter
    rw [swapAt_frame]
  refine ⟨contextOf (blocksAfter (decision s) (receiverTurns race (decision s) s) s) c, ?_, ?_, ?_, ?_⟩ <;>
    rw [frameStart_eq]
  · simp [beginFrames]
  · rfl
  · rfl
  · simp [beginFrames, hblocks]

theorem frameStart_enginesSound (race : FrameRace) (h : EnginesSound s) : EnginesSound (frameStart race s) := by
  have hfade : (frameStart race s).fade.level ≤ 4096 := by
    rw [frameStart_fade]
    exact fadeStep_level_le h.fade.1 h.fade.2
  refine ⟨fun c x hx => ?_, ⟨hfade, ?_⟩, fun c => ?_⟩
  · obtain ⟨y, hy, hbank, hlevel, -⟩ := frameStart_engines race s c
    cases hy.symm.trans hx
    exact ⟨hbank, hlevel.trans_le hfade⟩
  · rw [frameStart_fade]
    unfold Fade.step
    split <;> exact h.fade.2
  · obtain ⟨y, -, -, -, hout⟩ := frameStart_engines race s c
    rw [hout]
    exact h.codes c

theorem restart_enginesSound (o : Handing) (h : EnginesSound s) : EnginesSound (restart o s) := by
  have hengine (c : Channel) : (restartBlocks s).engines[c] =
      { s.engines[c] with context := s.engines[c].context.map fun x => { x with contentOff := true } } := by
    simp [restartBlocks]
  rw [restart_frame]
  refine ⟨fun c x hx => ?_, by simp [restartBlocks, Fade.reset], fun c => ?_⟩
  · have hx : (restartBlocks s).engines[c].context = some x := hx
    rw [hengine] at hx
    obtain ⟨y, hy, rfl⟩ := Option.map_eq_some_iff.mp hx
    exact h.contexts c y hy
  · have hcodes := h.codes c
    simp only [hengine]
    exact hcodes

/-- A pixel delivered comes from the sky path of ACTIVE, or is code 0 (R58). -/
theorem deliveredCodes_le (ht : TablesSound (commitPart s)) {c : Channel} {ctx : FrameContext}
    (hbank : ctx.bankIsB = s.tables.activeIsB) (hfade : ctx.fade ≤ 4096) (x y : Nat) :
    (deliveredCodes s c ctx x y).r ≤ 1023 ∧ (deliveredCodes s c ctx x y).g ≤ 1023 ∧
      (deliveredCodes s c ctx x y).b ≤ 1023 := by
  unfold deliveredCodes
  split
  · have hactive : s.tables.bank ctx.bankIsB = s.tables.active := by rw [hbank]; rfl
    rw [hactive]
    exact skyPath_le ht.active ht.lifts _ hfade c x y
  · decide

theorem deliverPixel_enginesSound (c : Channel) (ht : TablesSound (commitPart s)) (h : EnginesSound s) :
    EnginesSound (deliverPixel c s) := by
  refine ⟨fun c' x hx => ?_, ?_, fun c' => ?_⟩
  · rw [deliverPixel_context] at hx
    rw [deliverPixel_frame]
    exact h.contexts c' x hx
  · rw [deliverPixel_frame]
    exact h.fade
  · unfold deliverPixel
    dsimp only
    split
    · by_cases hc : c = c'
      · subst hc
        simp [OutPixel.zero]
      · simpa [Fin.val_ne_of_ne hc] using h.codes c'
    · rename_i ctx hctx
      obtain ⟨hbank, hfade⟩ := h.contexts c ctx hctx
      split
      · by_cases hc : c = c'
        · subst hc
          simpa using deliveredCodes_le ht hbank hfade s.engines[c].x s.engines[c].y
        · simpa [Fin.val_ne_of_ne hc] using h.codes c'
      · exact h.codes c'

theorem edited_enginesSound {p : List Byte} (he : Edited p s i t) (h : EnginesSound s) : EnginesSound t := by
  cases he with
  | commits => exact enginesSound_congr h rfl rfl (activeIsB_setShadow _ _)
  | fades => exact ⟨h.contexts, ⟨h.fade.1, Nat.min_le_left _ _⟩, h.codes⟩
  | _ => exact enginesSound_congr h rfl rfl rfl

theorem carried_enginesSound {m : Message} (hc : Carried m s i t) (h : EnginesSound s) : EnginesSound t := by
  cases hc with
  | answers => exact enginesSound_congr h rfl rfl rfl
  | presents => exact enginesSound_congr h rfl rfl rfl
  | accepts _ he => exact enginesSound_congr (edited_enginesSound he h) rfl rfl rfl
  | aborts =>
    rw [abortAnswered_frame]
    exact enginesSound_congr h rfl rfl rfl
  | timing =>
    rw [timingSet_frame]
    exact enginesSound_congr h rfl rfl rfl
  | timingStarts _ _ ho =>
    rw [takeStart_timingSet s ho, timingSet_frame]
    exact frameStart_enginesSound _ (enginesSound_congr h rfl rfl rfl)
  | restarts => exact restart_enginesSound _ (enginesSound_congr h rfl rfl rfl)

theorem moves_enginesSound (hm : Moves s i t) (ht : TablesSound (commitPart s)) (h : EnginesSound s) : EnginesSound t := by
  cases hm with
  | request _ _ _ hc => exact carried_enginesSound hc h
  | starts => exact frameStart_enginesSound _ (enginesSound_congr h rfl rfl rfl)
  | pixel c => exact deliverPixel_enginesSound c ht h
  | resets =>
    refine ⟨fun c x hx => ?_, by simp [hardResetState, State.reset, Fade.reset], fun c => ?_⟩
    · simp [hardResetState, State.reset, PixelEngine.reset] at hx
    · simp [hardResetState, State.reset, PixelEngine.reset, OutPixel.zero]
  | stays => exact h
  | applying => exact enginesSound_congr h rfl rfl (activeIsB_setShadow _ _)
  | @checking k =>
    have hsame := (finishChecking_sameActive k s).2
    rw [finishChecking_frame] at hsame ⊢
    exact enginesSound_congr h rfl rfl hsame
  | @normalizing k =>
    have hsame := (finishNormalizing_sameActive k s).2
    rw [finishNormalizing_frame] at hsame ⊢
    exact enginesSound_congr h rfl rfl hsame
  | flooring => exact enginesSound_congr h rfl rfl (activeIsB_setShadow _ _)
  | @lifting k =>
    have hsame := (finishLifting_sameActive k s).2
    rw [finishLifting_frame] at hsame ⊢
    exact enginesSound_congr h rfl rfl hsame
  | turn => rw [takeTurn_frame]; exact enginesSound_congr h rfl rfl rfl
  | header => rw [takeHeader_frame]; exact enginesSound_congr h rfl rfl rfl
  | line => exact enginesSound_congr h rfl rfl rfl
  | frameEnd => rw [takeFrameEnd_frame]; exact enginesSound_congr h rfl rfl rfl
  | edge => rw [notifyTiming_frame]; exact enginesSound_congr h rfl rfl rfl
  | holdover => rw [notifyTiming_frame]; exact enginesSound_congr h rfl rfl rfl
  | byte => rw [takeByte_frame]; exact enginesSound_congr h rfl rfl rfl
  | gap => rw [takeGap_frame]; exact enginesSound_congr h rfl rfl rfl
  | breaks => rw [takeBreak_frame]; exact enginesSound_congr h rfl rfl rfl
  | breakEnds => exact enginesSound_congr h rfl rfl rfl
  | transmits => exact enginesSound_congr h rfl rfl rfl

end Engines

theorem moves_pictureSound {s t : State} {i : Instr} (hm : Moves s i t) (h : PictureSound s) : PictureSound t := by
  obtain ⟨htables, hpresented, hengines⟩ := (pictureSound_iff s).mp h
  refine (pictureSound_iff t).mpr ⟨commitMoves_tables (moves_commitMoves hm) htables hpresented, ?_,
    moves_enginesSound hm htables hengines⟩
  exact allPorts_moves (presentedLaw (Q := fun _ q => editOk q.record.edit) fun i l k p e clamped _ hcheck =>
    stagingCheck_editOk hcheck) hm hpresented

/-- Settles O57: the tables by the transitions of a commit, the records by the checks that let them in, the codes by the
sky path. -/
theorem pictureStaysSound : Obligations.PictureStaysSound := by
  intro s t hs h
  refine step_keeps (P := PictureSound) (fun s q h => ?_) (fun _ _ _ => moves_pictureSound) h hs
  exact ⟨h.bankA, h.bankB, h.queued, h.presented, h.active, h.armed, h.contexts, h.fade, h.codes⟩

end Sys2Proof.Proofs

/-! ### Every invariant holds after hard reset -/
namespace Sys2Proof.Proofs

open Sys2Proof.Machine

theorem reset_port (l : Link) : State.reset.ports[l] = Port.reset l := by simp [State.reset]

theorem reset_receiver (c : Channel) : State.reset.receivers[c] = Receiver.reset := by simp [State.reset]

theorem receiverReset_ok : ReceiverOk Receiver.reset := by
  refine ⟨by decide, by decide, by decide, by decide, by decide, fun i => ?_⟩
  have hbanks : ∀ i : Fin 3, Receiver.reset.banks[i] = FrameBank.cleared ∨ Receiver.reset.banks[i] = FrameBank.free := by
    decide
  rcases hbanks i with hi | hi <;> rw [hi]
  · exact cleared_wf
  · exact cleared_wf

theorem reset_noRecords (l : Link) (q : Presented) : State.reset.ports[l].inProcess ≠ some q := by
  rw [reset_port]
  simp [Port.reset]

theorem reset_tablesSound : TablesSound (commitPart State.reset) :=
  ⟨bankOk_dark, bankOk_dark, by simp [commitPart, State.reset, Staging.reset], liftsBounded_dark, by
    simp [commitPart, State.reset]⟩

theorem reset_enginesSound : EnginesSound State.reset := by
  refine ⟨fun c x hx => ?_, by decide, fun c => ?_⟩
  · simp [State.reset, PixelEngine.reset] at hx
  · simp [State.reset, PixelEngine.reset, OutPixel.zero]

/-- Settles O53: each invariant from the reset values of its own block. -/
theorem invariantsHoldAtReset : Obligations.InvariantsHoldAtReset := by
  refine ⟨fun l => ?ports, ?commit, ?frames, ?timing, ?picture, ?sky, ?roles, ?releases⟩
  case ports =>
    rw [reset_port]
    exact (portLaw_ok State.reset).reset l
  case commit => exact (commitSound_iff _).mpr ⟨Nat.zero_le _, .idle rfl rfl rfl⟩
  case frames =>
    refine (framesSound_iff _).mpr ⟨fun c => ?_, barrierReset_inRange⟩
    rw [reset_receiver]
    exact receiverReset_ok
  case timing => exact (timingSound_iff _).mpr ⟨timingReset_inRange, fadeReset_inRange⟩
  case picture =>
    exact (pictureSound_iff _).mpr ⟨reset_tablesSound, fun l q hq => absurd hq (reset_noRecords l q), reset_enginesSound⟩
  case sky => exact (skyBalanced_iff _).mpr (partBalanced_early registered_dark balanced_dark (.inl rfl))
  case roles => exact ⟨by simp [State.reset, Staging.reset], fun l q hq => absurd hq (reset_noRecords l q)⟩
  case releases => simp [ReleasesCounted, State.reset, Barrier.reset]

end Sys2Proof.Proofs

/-! ### Requests in general (R187, R188, R191)

A request taken is answered once or presents its record, and a request answered with anything but ACCEPTED leaves nothing
but its response. The checks that all requests share, of the payload length and of the sender, come before their own. -/
namespace Sys2Proof.Proofs

open Sys2Proof.Machine

/-- From port `p`, the oldest request is gone and `r` is the one response. -/
structure AnsweredPort (p p' : Port) (r : Response) : Prop where
  buffer : p'.buffer = p.buffer.tail
  idle : p'.inProcess = none
  response : responsesIn p'.outbound = [r]

section Answers

variable {s t : State} {l : Link} {r : Response}

theorem answeredPort_answered {p : Port} (hheld : PortHeld p t.ports[l]) (hp : p.inProcess = none)
    (ho : responsesIn t.ports[l].outbound = []) : AnsweredPort p (answered l r t).ports[l] r := by
  have hport : (answered l r t).ports[l] = Port.answers t.ports[l] r := withPort_same l _ t
  rw [hport]
  refine ⟨?_, ?_, by rw [Port.answers, responsesIn_append, ho]; rfl⟩ <;> rw [Port.answers, hheld]
  exact hp

theorem answeredPort_handAll {p : Port} (ns : List (Link × NoticeBody)) (h : AnsweredPort p t.ports[l] r) :
    AnsweredPort p (handAll ns t).ports[l] r := by
  obtain ⟨hbuffer, hidle, hresponse⟩ := h
  refine ⟨?_, ?_, (handAll_responses ns t l).trans hresponse⟩ <;> rw [handAll_held ns t l]
  · exact hbuffer
  · exact hidle

theorem answeredPort_notifyTiming {p : Port} (prev : TimingState) (h : AnsweredPort p t.ports[l] r) :
    AnsweredPort p (notifyTiming prev t).ports[l] r := by
  unfold notifyTiming
  split
  · exact h
  · exact answeredPort_handAll [(SL, _)] h

theorem answeredPort_frameStart {p : Port} (race : FrameRace) (h : AnsweredPort p t.ports[l] r) :
    AnsweredPort p (frameStart race t).ports[l] r := by
  rw [frameStart_port]
  exact answeredPort_handAll _ h

theorem answeredPort_restart {p : Port} (o : Handing) (h : AnsweredPort p t.ports[l] r) :
    AnsweredPort p (restart o t).ports[l] r := by
  have hbusy {u : State} (hu : AnsweredPort p u.ports[l] r) : AnsweredPort p (answerBusy u).ports[l] r := by
    have hport : (answerBusy u).ports[l] = u.ports[l].withdrawBusy := by simp [answerBusy]
    rw [hport, Port.withdrawBusy, hu.idle]
    exact hu
  have hblocks : AnsweredPort p (restartBlocks t).ports[l] r := h
  unfold restart
  cases o
  · exact answeredPort_handAll _ (hbusy hblocks)
  · exact hbusy (answeredPort_handAll _ hblocks)

variable (hp : s.ports[l].inProcess = none) (ho : responsesIn s.ports[l].outbound = [])

include hp ho

theorem answeredPort_afterHandAll (ns : List (Link × NoticeBody)) {t : State} (ht : t.ports = s.ports) :
    AnsweredPort s.ports[l] (answered l r (handAll ns t)).ports[l] r := by
  have hheld := handAll_held ns t l
  have hresponses := handAll_responses ns t l
  rw [ht] at hheld hresponses
  exact answeredPort_answered hheld hp (hresponses.trans ho)

theorem answeredPort_timingSet (taking : TimingTaking) (choice : TimingChoice) :
    AnsweredPort s.ports[l] (timingSet l taking choice s).ports[l] (timingAnswer (timingChosen taking choice s)) := by
  unfold timingSet
  cases taking.order
  · exact answeredPort_notifyTiming _ (answeredPort_answered (t := { s with timing := _ }) rfl hp ho)
  · unfold notifyTiming
    dsimp only
    split
    · exact answeredPort_answered (t := { s with timing := _ }) rfl hp ho
    · exact answeredPort_afterHandAll hp ho [(SL, _)] rfl

theorem answeredPort_abort (o : Handing) (c : CurrentCommit) :
    AnsweredPort s.ports[l] (abortAnswered l o c s).ports[l]
      (acceptance Kind.abortCommit false (.abortedIn s.engine.state)) := by
  unfold abortAnswered
  cases o
  · exact answeredPort_handAll _ (answeredPort_answered (t := abandonCommit c s) rfl hp ho)
  · exact answeredPort_afterHandAll hp ho _ rfl

theorem answeredPort_edited {i : Instr} {p : List Byte} {t : State} (hl : requestLink i = some l)
    (he : Edited p s i t) (r : Response) : AnsweredPort s.ports[l] (answered l r t).ports[l] r := by
  have hports (h : t.ports = s.ports) : AnsweredPort s.ports[l] (answered l r t).ports[l] r :=
    answeredPort_answered (by rw [h]; rfl) hp (by rw [h]; exact ho)
  cases he with
  | mask =>
    cases hl
    have hmask : (upd s.ports l fun q => { q with mask := noticeMaskOf p })[l] =
        { s.ports[l] with mask := noticeMaskOf p } := by simp
    have h := answeredPort_answered (r := r) (l := l) (p := { s.ports[l] with mask := noticeMaskOf p })
      (t := { s with ports := upd s.ports l fun q => { q with mask := noticeMaskOf p } }) (by rw [hmask]; rfl) hp
      (by rw [hmask]; exact ho)
    exact ⟨h.buffer, h.idle, h.response⟩
  | _ => exact hports rfl

end Answers

/-- A request carried out is answered once, with what differs from an answer alone only where it is ACCEPTED, or has
presented its record. -/
theorem carried_port {m : Message} {i : Instr} {l : Link} {s t : State} (hl : requestLink i = some l)
    (hw : Waits l m.kind m.payload s) (hk : takesKind i m.kind) (hc : Carried m s i t) :
    (∃ r, AnsweredPort s.ports[l] t.ports[l] r ∧ r.kind = m.kind ∧ (r.code ≠ .accepted → t = answered l r s)) ∨
      ∃ q, t.ports[l] = Port.presents s.ports[l] q ∧ q.kind = m.kind ∧ q.record.origin = l := by
  obtain ⟨-, hp, ho, -⟩ := hw
  have ho := (responsesIn_eq_nil_iff _).mpr ho
  cases hc with
  | answers hl' hr =>
    cases hl.symm.trans hl'
    exact .inl ⟨_, answeredPort_answered rfl hp ho, hr, fun _ => rfl⟩
  | presents hl' _ =>
    cases hl.symm.trans hl'
    exact .inr ⟨_, withPort_same l _ s, rfl, rfl⟩
  | accepts hl' he =>
    cases hl.symm.trans hl'
    exact .inl ⟨_, answeredPort_edited hp ho hl he _, rfl, (absurd rfl ·)⟩
  | aborts =>
    cases hl
    exact .inl ⟨_, answeredPort_abort hp ho _ _, (kind_of_takesKind hk rfl).symm, (absurd rfl ·)⟩
  | timing =>
    cases hl
    exact .inl ⟨_, answeredPort_timingSet hp ho _ _, (kind_of_takesKind hk rfl).symm, (absurd rfl ·)⟩
  | timingStarts _ _ hov =>
    cases hl
    rw [takeStart_timingSet s hov]
    exact .inl ⟨_, answeredPort_frameStart _ (answeredPort_timingSet hp ho _ _), (kind_of_takesKind hk rfl).symm,
      (absurd rfl ·)⟩
  | restarts =>
    cases hl
    exact .inl ⟨_, answeredPort_restart _ (answeredPort_answered rfl hp ho), (kind_of_takesKind hk rfl).symm,
      (absurd rfl ·)⟩

/-- Settles O6: a request taken is answered once, naming its KIND, or waits with its record presented. -/
theorem oneResponseEach : Obligations.OneResponseEach := by
  unfold Obligations.OneResponseEach
  intro i l k p s hl hk hw
  refine ⟨_, exec_takes hl hk hw, ?_⟩
  obtain ⟨-, -, ho, -⟩ := id hw
  rcases carried_port (m := ⟨k, p⟩) hl hw hk (carryOut_carried hl hk s) with ⟨r, ha, hr, -⟩ | ⟨q, hq, hk', ho'⟩
  · exact ⟨ha.buffer, .inl ⟨ha.idle, r, ha.response, hr⟩⟩
  · rw [hq]
    exact ⟨rfl, .inr ⟨(responsesIn_eq_nil_iff _).mpr ho, q, rfl, hk', ho'⟩⟩

/-- Settles O7: only ACCEPTED answers come with a change of the part. -/
theorem refusedChangesNothing : Obligations.RefusedChangesNothing := by
  unfold Obligations.RefusedChangesNothing
  intro i l k p s t r hl hk hw ht hr hcode
  obtain ⟨-, -, ho, -⟩ := id hw
  rw [exec_takes hl hk hw] at ht
  cases ht
  rcases carried_port (m := ⟨k, p⟩) hl hw hk (carryOut_carried hl hk s) with ⟨r', ha, -, heq⟩ | ⟨q, hq, -⟩
  · cases hr.symm.trans ha.response
    exact heq hcode
  · rw [hq, Port.presents, (responsesIn_eq_nil_iff _).mpr ho] at hr
    cases hr

/-! #### The checks every request begins with -/

theorem exec_refuses {i : Instr} {l : Link} {k : Byte} {p : List Byte} {s : State} {code : ResultCode}
    (hl : requestLink i = some l) (hk : takesKind i k) (hw : Waits l k p s)
    (h : carryOut { kind := k, payload := p } i (dropOldest l s) = refuse l k code (dropOldest l s)) :
    Refuses i l k code s := by
  rw [Refuses, exec_takes hl hk hw, h, refuse_dropOldest]

section Checks

variable {l : Link} {k : Byte} {p : List Byte} {s : State} {code : ResultCode}

theorem enrollmentRequest_error {f : BarrierChannel → BarrierChannel} (h : checkChannels l p = .error code) :
    enrollmentRequest l k f p s = refuse l k code s := by rw [enrollmentRequest, h]

theorem setBarrierRequest_error (h : checkSetBarrier l p = .error code) :
    setBarrierRequest l p s = refuse l Kind.setBarrier code s := by rw [setBarrierRequest, h]

theorem setCadenceRequest_error (h : checkSetCadence l p = .error code) :
    setCadenceRequest l p s = refuse l Kind.setCadence code s := by rw [setCadenceRequest, h]

theorem outputsRequest_error {f : OutputState → OutputState} (h : checkOutputs l p = .error code) :
    outputsRequest l k f p s = refuse l k code s := by rw [outputsRequest, h]

theorem setTimingRequest_error {taking : TimingTaking} (h : checkSetTiming l p = .error code) :
    setTimingRequest l taking p s = refuse l Kind.setTiming code s := by rw [setTimingRequest, h]

theorem readNodesRequest_error (h : checkReadNodes s p = .error code) :
    readNodesRequest l p s = refuse l Kind.readNodes code s := by rw [readNodesRequest, h]

theorem readSeamRequest_error (h : checkReadSeam s p = .error code) :
    readSeamRequest l p s = refuse l Kind.readSeam code s := by rw [readSeamRequest, h]

theorem readStatusRequest_error (h : checkReadStatus p = .error code) :
    readStatusRequest l p s = refuse l Kind.readStatus code s := by rw [readStatusRequest, h]

theorem readCounterRequest_error (h : checkReadCounter l p = .error code) :
    readCounterRequest l p s = refuse l Kind.readCounter code s := by rw [readCounterRequest, h]

end Checks

/-- A payload of another length than the kind requires is MALFORMED before all else (R188). -/
theorem carryOut_malformed {i : Instr} {l : Link} {k : Byte} {p : List Byte} (hl : requestLink i = some l)
    (hk : requestKind i = some k) (hp : p.length ≠ requiredLength l k p) (s : State) :
    carryOut { kind := k, payload := p } i s = refuse l k .malformed s := by
  cases i <;> cases hl <;> cases hk
  case stageNodes => exact congrArg (stageRequest l _ · s) (if_pos hp)
  case stageSeam => exact congrArg (stageRequest l _ · s) (if_pos hp)
  case dropSeam => exact congrArg (stageRequest l _ · s) (if_pos hp)
  case stageChannel => exact congrArg (stageRequest l _ · s) (if_pos hp)
  case stageFloor => exact congrArg (stageRequest l _ · s) (if_pos hp)
  case stageLut => exact congrArg (stageRequest l _ · s) (if_pos hp)
  case discard =>
    have hcheck : checkDiscard l s p = .error .malformed := by
      have hp : p.length ≠ if l = SL then 1 else 0 := hp
      unfold checkDiscard
      by_cases hl : l = SL
      · rw [if_pos hl] at hp
        rw [if_neg (not_not.mpr hl), if_pos hp]
      · rw [if_neg hl] at hp
        rw [if_pos hl, if_pos hp]
    rw [carryOut, discardRequest, hcheck]
    rfl
  case commit => exact if_pos hp
  case abortCommit => exact if_pos hp
  case enroll => exact enrollmentRequest_error (if_pos hp)
  case withdraw => exact enrollmentRequest_error (if_pos hp)
  case setBarrier => exact setBarrierRequest_error (if_pos hp)
  case setCadence => exact setCadenceRequest_error (if_pos hp)
  case fade => exact if_pos hp
  case outputOn => exact outputsRequest_error (if_pos hp)
  case outputOff => exact outputsRequest_error (if_pos hp)
  case setTiming => exact setTimingRequest_error (if_pos hp)
  case setRaster => exact if_pos hp
  case setMode => exact if_pos hp
  case restart => exact if_pos hp
  case setNotices => exact if_pos hp
  case readNodes => exact readNodesRequest_error (if_pos hp)
  case readSeam => exact readSeamRequest_error (if_pos hp)
  case readStatus => exact readStatusRequest_error (if_pos hp)
  case readCounter => exact readCounterRequest_error (if_pos hp)

/-- Settles O8: the KIND and the payload length are checked first. -/
theorem kindAndLengthChecked : Obligations.KindAndLengthChecked := by
  unfold Obligations.KindAndLengthChecked
  refine ⟨fun l k p s hw hk => exec_refuses rfl (.inr ⟨⟨l, rfl⟩, hk⟩) hw rfl, ?_⟩
  intro i l k p s hl hk hw hp
  exact exec_refuses hl (.inl hk) hw (carryOut_malformed hl hk hp _)

/-- A request of the show link's alone is NOT_PERMITTED from another link, next after its length (R191). -/
theorem carryOut_notPermitted {i : Instr} {l : Link} {k : Byte} {p : List Byte} (hl : requestLink i = some l)
    (hk : requestKind i = some k)
    (hshow : k ∈ [0x24#8, 0x42#8, 0x43#8, 0x50#8, 0x51#8, 0x52#8, 0x53#8, 0x54#8, 0x60#8, 0x61#8]) (htile : l ≠ SL)
    (hp : p.length = requiredLength l k p) (s : State) :
    carryOut { kind := k, payload := p } i s = refuse l k .notPermitted s := by
  have hp := not_not.mpr hp
  cases i <;> cases hl <;> cases hk
  case stageFloor => exact congrArg (stageRequest l _ · s) ((if_neg hp).trans (if_pos htile))
  case setBarrier => exact setBarrierRequest_error ((if_neg hp).trans (if_pos htile))
  case setCadence => exact setCadenceRequest_error ((if_neg hp).trans (if_pos htile))
  case fade => exact (if_neg hp).trans (if_pos htile)
  case outputOn => exact outputsRequest_error ((if_neg hp).trans (if_pos htile))
  case outputOff => exact outputsRequest_error ((if_neg hp).trans (if_pos htile))
  case setTiming => exact setTimingRequest_error ((if_neg hp).trans (if_pos htile))
  case setRaster => exact (if_neg hp).trans (if_pos htile)
  case setMode => exact (if_neg hp).trans (if_pos htile)
  case restart => exact (if_neg hp).trans (if_pos htile)
  all_goals exact absurd hshow (by decide)

/-- Settles O9: what the show link alone may send is refused to the tile links. -/
theorem showRequestsNotPermitted : Obligations.ShowRequestsNotPermitted := by
  unfold Obligations.ShowRequestsNotPermitted
  intro i l k p s hl hk hshow htile hw hp
  exact exec_refuses hl (.inl hk) hw (carryOut_notPermitted hl hk hshow htile hp _)

end Sys2Proof.Proofs

/-! ### The staging requests (R8, R9, R13, R14, R21, R22)

Each check is said once: where it refuses, in its order, and what it leaves to HELD and to the record presented. -/
namespace Sys2Proof.Proofs

open Sys2Proof.Machine

section Numbers

variable {n : Nat}

theorem chan?_eq_none : chan? n = none ↔ 12 ≤ n := by simp [chan?]

theorem seam?_eq_some {id : SeamId} : seam? n = some id ↔ n = id.val := by
  unfold seam?
  split
  · simp [Fin.ext_iff]
  · have := id.isLt
    simp only [reduceCtorEq, false_iff]
    omega

theorem seam?_eq_none : seam? n = none ↔ 48 ≤ n := by simp [seam?]

theorem tileOf_eq_some {l : Link} {c : Channel} : tileOf l = some c ↔ l.val = c.val := by
  unfold tileOf
  split
  · simp [Fin.ext_iff]
  · have := c.isLt
    simp only [reduceCtorEq, false_iff]
    omega

theorem exists_tileOf {l : Link} (h : l ≠ 12) : ∃ c, tileOf l = some c := by
  have hlt : l.val < 12 := by
    have hval : l.val ≠ 12 := fun e => h (Fin.ext e)
    omega
  exact ⟨⟨l.val, hlt⟩, tileOf_eq_some.mpr rfl⟩

theorem foreignTile_iff {l : Link} {c : Channel} : foreignTile l c = true ↔ l ≠ 12 ∧ l.val ≠ c.val := by
  simp only [foreignTile, decide_eq_true_eq]

end Numbers

section Stage

variable {i : Instr} {l : Link} {k : Byte} {p : List Byte} {s : State}

theorem carryOut_stage {checked : Except ResultCode (Edit × Bool)} (hl : requestLink i = some l)
    (hk : requestKind i = some k) (hc : stagingCheck s p i = some checked) :
    carryOut { kind := k, payload := p } i (dropOldest l s) = stageRequest l k checked (dropOldest l s) := by
  cases i <;> cases hc <;> cases hl <;> cases hk <;> rfl

theorem exec_stage_refuses {code : ResultCode} (hl : requestLink i = some l) (hk : requestKind i = some k)
    (hw : Waits l k p s) (hc : stagingCheck s p i = some (.error code)) : Refuses i l k code s :=
  exec_refuses hl (.inl hk) hw (carryOut_stage hl hk hc)

theorem exec_stage_presents {e : Edit} {clamped : Bool} (hl : requestLink i = some l) (hk : requestKind i = some k)
    (hw : Waits l k p s) (hc : stagingCheck s p i = some (.ok (e, clamped))) :
    exec i s = .next (presented l k e clamped s) := by
  rw [exec_takes hl (.inl hk) hw, carryOut_stage hl hk hc, stageRequest, present_dropOldest]

/-- What is left of a check once all but the mode is judged (R192). -/
def heldOr (l : Link) (s : State) (e : Edit) (clamped : Bool) : Except ResultCode (Edit × Bool) :=
  if heldTile l s then .error .held else .ok (e, clamped)

theorem exec_stage_heldOr {e : Edit} {clamped : Bool} (hl : requestLink i = some l) (hk : requestKind i = some k)
    (hw : Waits l k p s) (hc : stagingCheck s p i = some (heldOr l s e clamped)) :
    exec i s = .next
      (if l ≠ 12 ∧ s.mode = .showing then answered l (refusal k .held) s else presented l k e clamped s) := by
  have hheld : heldTile l s = true ↔ l ≠ 12 ∧ s.mode = .showing := decide_eq_true_iff
  by_cases h : heldTile l s = true
  · rw [heldOr, if_pos h] at hc
    rw [if_pos (hheld.mp h)]
    exact exec_stage_refuses hl hk hw hc
  · rw [heldOr, if_neg h] at hc
    rw [if_neg (mt hheld.mpr h)]
    exact exec_stage_presents hl hk hw hc

/-- SL's edits are never HELD. -/
theorem heldOr_SL (s : State) (e : Edit) (clamped : Bool) : heldOr 12 s e clamped = .ok (e, clamped) :=
  if_neg (by simp [heldTile, SL])

end Stage

/-! #### STAGE_NODES -/

section Nodes

variable {l : Link} {p : List Byte} {s : State}

/-- A channel, a count or a mask out of range. -/
def NodesBad (p : List Byte) : Prop :=
  12 ≤ u8 p 0 ∨ u8 p 3 = 0 ∨ 64 < u8 p 3 ∨ (bitAt p 4 0 || bitAt p 4 1 || bitAt p 4 2) = false

theorem checkStageNodes_badField (hp : p.length = stageNodesLength p) (h : NodesBad p) :
    checkStageNodes l s p = .error .badField := by
  rw [checkStageNodes, if_neg (not_not.mpr hp)]
  cases hc : chan? (u8 p 0) with
  | none => rfl
  | some c =>
    refine if_pos (h.resolve_left fun hbig => ?_)
    rw [chan?_eq_none.mpr hbig] at hc
    cases hc

theorem checkStageNodes_good {c : Channel} (hp : p.length = stageNodesLength p) (hc : u8 p 0 = c.val) (h : ¬ NodesBad p) :
    checkStageNodes l s p = if Config.nodesPerGrid < u16 p 1 + u8 p 3 then .error .badIndex
      else if foreignTile l c then .error .notPermitted
      else heldOr l s (.nodes c (u16 p 1) (nodeMaskOf p) (nodeEntriesOf p)) (nodesClamped p) := by
  rw [checkStageNodes, if_neg (not_not.mpr hp), chan?_eq_some.mpr hc]
  exact if_neg fun hbad => h (.inr hbad)

theorem exists_channel {n : Nat} (h : ¬ 12 ≤ n) : ∃ c : Channel, n = c.val := ⟨⟨n, Nat.lt_of_not_le h⟩, rfl⟩

theorem nodeEntriesOf_getElem? {i : Nat} (hi : i < u8 p 3) :
    (nodeEntriesOf p)[i]? = some (nodeEntryAt p (nodeMaskOf p) (5 + 8 * i)) := by
  simp [nodeEntriesOf, hi]

theorem nodesClamped_iff (p : List Byte) :
    nodesClamped p = true ↔ bitAt p 4 2 = true ∧ ∃ i, i < u8 p 3 ∧ 4096 < u16 p (5 + 8 * i + 4) := by
  simp [nodesClamped, nodeMaskOf]

end Nodes

/-- Settles O10: the checks of STAGE_NODES in their order, and the record presented. -/
theorem stageNodesPresents : Obligations.StageNodesPresents := by
  unfold Obligations.StageNodesPresents
  constructor
  · intro l p s hw hp
    have hrefuses {code : ResultCode} (h : checkStageNodes l s p = .error code) :
        Refuses (.stageNodes l) l 0x20#8 code s := exec_stage_refuses rfl rfl hw (congrArg some h)
    refine ⟨fun hbad => hrefuses (checkStageNodes_badField hp hbad), fun hbad hrun => ?_, fun hbad hrun hl hother => ?_⟩
    all_goals obtain ⟨c, hc⟩ := exists_channel fun h => hbad (.inl h)
    · exact hrefuses ((checkStageNodes_good hp hc hbad).trans (if_pos hrun))
    · refine hrefuses ((checkStageNodes_good hp hc hbad).trans ((if_neg (Nat.not_lt.mpr hrun)).trans (if_pos ?_)))
      exact foreignTile_iff.mpr ⟨hl, hc ▸ hother⟩
  · intro l p s c hw hp hc hlow hhigh hmask hrun hown
    have hgood : ¬ NodesBad p := by
      rintro (h | h | h | h)
      · have := c.isLt; omega
      · omega
      · omega
      · rw [hmask] at h; cases h
    have hforeign : ¬ foreignTile l c = true := fun h => hown.elim (foreignTile_iff.mp h).1 (foreignTile_iff.mp h).2
    refine ⟨nodeEntriesOf p, nodesClamped p, length_nodeEntriesOf p, fun i hi => nodeEntriesOf_getElem? hi,
      nodesClamped_iff p, exec_stage_heldOr rfl rfl hw (congrArg some ?_)⟩
    rw [checkStageNodes_good hp hc hgood, if_neg (Nat.not_lt.mpr hrun), if_neg hforeign]
    rfl

/-! #### STAGE_SEAM and DROP_SEAM -/

section Seams

variable {l : Link} {p : List Byte} {s : State} {id : SeamId} {ms : List Channel}

/-- A seam id, a member count, a member or a point count out of range. -/
def SeamBad (p : List Byte) : Prop :=
  48 ≤ u8 p 0 ∨ u8 p 1 < 2 ∨ 4 < u8 p 1 ∨ (∃ j, j < u8 p 1 ∧ 12 ≤ u8 p (3 + j)) ∨
    (∃ j, j < u8 p 1 ∧ ∃ k, k < j ∧ u8 p (3 + k) = u8 p (3 + j)) ∨ u8 p 2 = 0 ∨ 96 < u8 p 2

/-- A node index past the grid. -/
def SeamPast (p : List Byte) : Prop :=
  ∃ i, i < u8 p 2 ∧ ∃ j, j < u8 p 1 ∧ 1066 ≤ u16 p (3 + u8 p 1 + 4 * (i * u8 p 1 + j))

/-- The members as sent are named once each. -/
theorem seamMembersOf_nodup (p : List Byte) :
    (seamMembersOf p).Nodup ↔ ¬ ∃ j, j < u8 p 1 ∧ ∃ k, k < j ∧ u8 p (3 + k) = u8 p (3 + j) := by
  simp only [seamMembersOf, List.Nodup, List.pairwise_iff_getElem, List.length_map, List.length_range,
    List.getElem_map, List.getElem_range]
  constructor
  · rintro h ⟨j, hj, k, hk, e⟩
    exact h k j (hk.trans hj) hj hk e
  · intro h k j _ hj hk e
    exact h ⟨j, hj, k, hk, e⟩

theorem mem_seamMembersOf {n : Nat} : n ∈ seamMembersOf p ↔ ∃ j, j < u8 p 1 ∧ u8 p (3 + j) = n := by
  simp [seamMembersOf]

theorem seamPointsOf_past_iff (p : List Byte) :
    ((seamPointsOf p).any fun q => q.any fun e => decide (Config.nodesPerGrid ≤ e.node)) = true ↔ SeamPast p := by
  simp [seamPointsOf, SeamPast, Config.nodesPerGrid]

/-- The point at index `i` as sent. -/
def seamPointAt (p : List Byte) (i : Nat) : List MemberEntry :=
  (List.range (u8 p 1)).map fun j =>
    { node := u16 p (3 + u8 p 1 + 4 * (i * u8 p 1 + j)), coverage := u16 p (3 + u8 p 1 + 4 * (i * u8 p 1 + j) + 2) }

theorem seamPointsOf_getElem? {i : Nat} (hi : i < u8 p 2) : (seamPointsOf p)[i]? = some (seamPointAt p i) := by
  simp [seamPointsOf, seamPointAt, hi]

/-- Every number sent names a channel exactly where a member list does. -/
theorem exists_members {ns : List Nat} (h : ∀ n ∈ ns, n < 12) : ∃ ms : List Channel, ms.map Fin.val = ns := by
  lift ns to List Channel using h
  exact ⟨ns, rfl⟩

theorem membersOf?_good (h : ¬ SeamBad p) : ∃ ms, membersOf? (seamMembersOf p) = some ms := by
  obtain ⟨ms, hms⟩ := exists_members (ns := seamMembersOf p) fun n hn => by
    obtain ⟨j, hj, rfl⟩ := mem_seamMembersOf.mp hn
    exact Nat.lt_of_not_le fun hbig => h (.inr (.inr (.inr (.inl ⟨j, hj, hbig⟩))))
  exact ⟨ms, membersOf?_eq_some.mpr
    ⟨(seamMembersOf_nodup p).mpr fun htwice => h (.inr (.inr (.inr (.inr (.inl htwice))))), hms⟩⟩

theorem checkStageSeam_badField (hp : p.length = stageSeamLength p) (h : SeamBad p) :
    checkStageSeam l s p = .error .badField := by
  rw [checkStageSeam, if_neg (not_not.mpr hp)]
  cases hid : seam? (u8 p 0) with
  | none => rfl
  | some id =>
    have hid : ¬ 48 ≤ u8 p 0 := fun hbig => by rw [seam?_eq_none.mpr hbig] at hid; cases hid
    by_cases hcount : u8 p 1 < 2 ∨ 4 < u8 p 1
    · exact if_pos hcount
    dsimp only
    rw [if_neg hcount]
    cases hms : membersOf? (seamMembersOf p) with
    | none => rfl
    | some ms =>
      obtain ⟨hnodup, hmap⟩ := membersOf?_eq_some.mp hms
      refine if_pos ?_
      rcases h with h | h | h | ⟨j, hj, h⟩ | h | h | h
      · exact absurd h hid
      · exact absurd (.inl h) hcount
      · exact absurd (.inr h) hcount
      · obtain ⟨c, -, hc⟩ := List.mem_map.mp (hmap ▸ mem_seamMembersOf.mpr ⟨j, hj, rfl⟩)
        have := c.isLt
        omega
      · exact absurd h ((seamMembersOf_nodup p).mp hnodup)
      · exact .inl (by omega)
      · exact .inr h

theorem checkStageSeam_good (hp : p.length = stageSeamLength p) (hid : u8 p 0 = id.val)
    (hms : membersOf? (seamMembersOf p) = some ms) (h : ¬ SeamBad p) :
    checkStageSeam l s p = if (seamPointsOf p).any (fun q => q.any fun e => decide (Config.nodesPerGrid ≤ e.node)) then
        .error .badIndex
      else if ms.all (foreignTile l) then .error .notPermitted
      else heldOr l s (.seam id { members := ms, points := seamPointsOf p }) false := by
  have hcount : ¬ (u8 p 1 < 2 ∨ 4 < u8 p 1) := fun hbad =>
    h (hbad.elim (fun hb => .inr (.inl hb)) fun hb => .inr (.inr (.inl hb)))
  have hpoints : ¬ (u8 p 2 < 1 ∨ 96 < u8 p 2) := fun hbad =>
    h (.inr (.inr (.inr (.inr (.inr (hbad.imp_left Nat.lt_one_iff.mp))))))
  rw [checkStageSeam, if_neg (not_not.mpr hp), seam?_eq_some.mpr hid]
  dsimp only
  rw [if_neg hcount, hms]
  exact if_neg hpoints

theorem all_foreign_iff (hmap : ms.map Fin.val = seamMembersOf p) (hl : l ≠ 12) :
    ms.all (foreignTile l) = true ↔ ∀ j, j < u8 p 1 → u8 p (3 + j) ≠ l.val := by
  simp only [List.all_eq_true, foreignTile_iff]
  constructor
  · intro h j hj e
    obtain ⟨c, hc, hval⟩ := List.mem_map.mp (hmap ▸ mem_seamMembersOf.mpr ⟨j, hj, rfl⟩)
    exact (h c hc).2 (hval.trans e).symm
  · intro h c hc
    obtain ⟨j, hj, hval⟩ := mem_seamMembersOf.mp (hmap ▸ List.mem_map_of_mem hc)
    exact ⟨hl, fun e => h j hj (hval.trans e.symm)⟩

theorem checkDropSeam_badField (hp : p.length = 1) (h : 48 ≤ u8 p 0) : checkDropSeam l s p = .error .badField := by
  rw [checkDropSeam, if_neg (not_not.mpr hp), seam?_eq_none.mpr h]

theorem checkDropSeam_SL (hp : p.length = 1) (hid : u8 p 0 = id.val) :
    checkDropSeam 12 s p = heldOr 12 s (.seamDrop id) false := by
  rw [checkDropSeam, if_neg (not_not.mpr hp), seam?_eq_some.mpr hid, heldOr_SL]
  rfl

theorem checkDropSeam_absent {c : Channel} (hp : p.length = 1) (hid : u8 p 0 = id.val) (hc : tileOf l = some c)
    (hm : s.tables.active.seams[id] = none) : checkDropSeam l s p = .error .notFound := by
  simp only [checkDropSeam, if_neg (not_not.mpr hp), seam?_eq_some.mpr hid, hc, hm]

theorem checkDropSeam_found {c : Channel} {m : Seam} (hp : p.length = 1) (hid : u8 p 0 = id.val)
    (hc : tileOf l = some c) (hm : s.tables.active.seams[id] = some m) :
    checkDropSeam l s p = if ¬ c ∈ m.members then .error .notPermitted else heldOr l s (.seamDrop id) false := by
  simp only [checkDropSeam, if_neg (not_not.mpr hp), seam?_eq_some.mpr hid, hc, hm]
  rfl

end Seams

/-- STAGE_SEAM within its bounds (R21). -/
theorem exec_stageSeam {l : Link} {p : List Byte} {s : State} {id : SeamId} {ms : List Channel}
    (hw : Waits l 0x21#8 p s) (hp : p.length = stageSeamLength p) (hid : u8 p 0 = id.val)
    (hms : membersOf? (seamMembersOf p) = some ms) (hbad : ¬ SeamBad p) (hpast : ¬ SeamPast p)
    (hown : l = 12 ∨ ∃ c ∈ ms, l.val = c.val) :
    exec (.stageSeam l) s = .next
      (if l ≠ 12 ∧ s.mode = .showing then answered l (refusal 0x21#8 .held) s
       else presented l 0x21#8 (.seam id { members := ms, points := seamPointsOf p }) false s) := by
  have hforeign : ¬ ms.all (foreignTile l) = true := by
    intro h
    rcases hown with rfl | ⟨c, hc, hval⟩
    · obtain ⟨hnodup, hmap⟩ := membersOf?_eq_some.mp hms
      have hlength : ms.length = u8 p 1 := by
        rw [← List.length_map (as := ms) Fin.val, hmap]
        simp [seamMembersOf]
      obtain ⟨c, hc⟩ := List.exists_mem_of_length_pos (l := ms) (by
        have : ¬ u8 p 1 < 2 := fun h => hbad (.inr (.inl h))
        omega)
      exact (foreignTile_iff.mp (List.all_eq_true.mp h c hc)).1 rfl
    · exact (foreignTile_iff.mp (List.all_eq_true.mp h c hc)).2 hval
  refine exec_stage_heldOr rfl rfl hw (congrArg some ?_)
  rw [checkStageSeam_good hp hid hms hbad, if_neg (mt (seamPointsOf_past_iff p).mp hpast), if_neg hforeign]

/-- Settles O11: the checks of STAGE_SEAM and DROP_SEAM in their order, and the records presented. -/
theorem seamEditsPresent : Obligations.SeamEditsPresent := by
  unfold Obligations.SeamEditsPresent
  refine ⟨?_, ?_, ?_, ?_⟩
  · intro l p s hw hp
    have hrefuses {code : ResultCode} (h : checkStageSeam l s p = .error code) :
        Refuses (.stageSeam l) l 0x21#8 code s := exec_stage_refuses rfl rfl hw (congrArg some h)
    refine ⟨fun hbad => hrefuses (checkStageSeam_badField hp hbad), fun hbad hpast => ?_,
      fun hbad hpast hl hother => ?_⟩
    all_goals
      obtain ⟨ms, hms⟩ := membersOf?_good hbad
      have hgood := checkStageSeam_good (l := l) (s := s) (id := ⟨u8 p 0, Nat.lt_of_not_le fun h => hbad (.inl h)⟩)
        hp rfl hms hbad
    · exact hrefuses (hgood.trans (if_pos ((seamPointsOf_past_iff p).mpr hpast)))
    · refine hrefuses (hgood.trans ((if_neg (mt (seamPointsOf_past_iff p).mp hpast)).trans (if_pos ?_)))
      exact (all_foreign_iff (membersOf?_eq_some.mp hms).2 hl).mpr hother
  · intro l p s hw hp
    have hrefuses {code : ResultCode} (h : checkDropSeam l s p = .error code) :
        Refuses (.dropSeam l) l 0x22#8 code s := exec_stage_refuses rfl rfl hw (congrArg some h)
    refine ⟨fun hbad => hrefuses (checkDropSeam_badField hp hbad), fun id hid hl => ?_⟩
    obtain ⟨c, hc⟩ := exists_tileOf hl
    refine ⟨fun hm => hrefuses (checkDropSeam_absent hp hid hc hm), fun m hm hother => ?_⟩
    refine hrefuses ((checkDropSeam_found hp hid hc hm).trans (if_pos fun hmem => ?_))
    exact hother c hmem (tileOf_eq_some.mp hc)
  · intro l p s id ms hw hp hid hlow hhigh hfew hmany hlength hmembers hnodup hnodes hown
    have hmap : ms.map Fin.val = seamMembersOf p := by
      refine List.ext_getElem? fun j => ?_
      by_cases hj : j < u8 p 1
      · rw [List.getElem?_map, hmembers j hj]
        simp [seamMembersOf, hj]
      · simp [seamMembersOf, hj, hlength]
    have hms : membersOf? (seamMembersOf p) = some ms :=
      membersOf?_eq_some.mpr ⟨hmap ▸ hnodup.map Fin.val_injective, hmap⟩
    have hbad : ¬ SeamBad p := by
      rintro (h | h | h | ⟨j, hj, h⟩ | h | h | h)
      · have := id.isLt; omega
      · omega
      · omega
      · obtain ⟨c, -, hc⟩ := List.mem_map.mp (hmap ▸ mem_seamMembersOf.mpr ⟨j, hj, rfl⟩)
        have := c.isLt
        omega
      · exact (seamMembersOf_nodup p).mp (membersOf?_eq_some.mp hms).1 h
      · omega
      · omega
    have hpast : ¬ SeamPast p := fun ⟨i, hi, j, hj, h⟩ => absurd (hnodes i hi j hj) (Nat.not_lt.mpr h)
    exact ⟨{ members := ms, points := seamPointsOf p }, rfl, by simp [seamPointsOf],
      fun i hi => ⟨_, seamPointsOf_getElem? hi, by simp [seamPointAt], fun j hj => by simp [seamPointAt, hj]⟩,
      exec_stageSeam hw hp hid hms hbad hpast hown⟩
  · intro l p s id hw hp hid hown
    refine exec_stage_heldOr rfl rfl hw (congrArg some ?_)
    rcases hown with rfl | ⟨c, m, hc, hm, hmem⟩
    · exact checkDropSeam_SL hp hid
    · rw [checkDropSeam_found hp hid (tileOf_eq_some.mpr hc) hm, if_neg (not_not.mpr hmem)]

end Sys2Proof.Proofs

/-! ### STAGE_CHANNEL, STAGE_FLOOR and STAGE_LUT (R9, R13, R14) -/
namespace Sys2Proof.Proofs

open Sys2Proof.Machine

section Channel

variable {l : Link} {p : List Byte} {s : State} {c : Channel}

/-- A channel, a mask or a selected raster out of range. -/
def ChannelBad (p : List Byte) : Prop :=
  12 ≤ u8 p 0 ∨ (bitAt p 1 0 || bitAt p 1 1 || bitAt p 1 2) = false ∨
    (bitAt p 1 0 = true ∧ (u16 p 2 < 256 ∨ 2560 < u16 p 2 ∨ u16 p 4 < 256 ∨ 1600 < u16 p 4))

theorem inputRasterOk_eq_false {w h : Nat} :
    inputRasterOk w h = false ↔ w < 256 ∨ 2560 < w ∨ h < 256 ∨ 1600 < h := by
  simp only [inputRasterOk, decide_eq_false_iff_not, not_and_or, Nat.not_le]

/-- The mask or a selected raster out of range, as the check puts it. -/
theorem channelBad_iff (p : List Byte) : ChannelBad p ↔ 12 ≤ u8 p 0 ∨ ((channelMaskOf p).selects = false ∨
    ((channelMaskOf p).raster = true ∧ inputRasterOk (channelValuesOf p).width (channelValuesOf p).height = false)) := by
  rw [inputRasterOk_eq_false]
  exact Iff.rfl

theorem checkStageChannel_badField (hp : p.length = 14) (h : ChannelBad p) :
    checkStageChannel l s p = .error .badField := by
  rw [checkStageChannel, if_neg (not_not.mpr hp)]
  cases hc : chan? (u8 p 0) with
  | none => rfl
  | some c =>
    refine if_pos (((channelBad_iff p).mp h).resolve_left fun hbig => ?_)
    rw [chan?_eq_none.mpr hbig] at hc
    cases hc

theorem checkStageChannel_good (hp : p.length = 14) (hc : u8 p 0 = c.val) (h : ¬ ChannelBad p) :
    checkStageChannel l s p = if foreignTile l c then .error .notPermitted
      else heldOr l s (.channel c (channelMaskOf p) (channelValuesOf p)) (channelClamped p) := by
  rw [checkStageChannel, if_neg (not_not.mpr hp), chan?_eq_some.mpr hc]
  exact if_neg fun hbad => h ((channelBad_iff p).mpr (.inr hbad))

theorem channelClamped_iff (p : List Byte) : channelClamped p = true ↔ (bitAt p 1 1 = true ∧ 4095 < u16 p 6) ∨
    (bitAt p 1 2 = true ∧ (4096 < u16 p 8 ∨ 4096 < u16 p 10 ∨ 4096 < u16 p 12)) := by
  simp [channelClamped, channelMaskOf]

end Channel

section Floor

variable {p : List Byte}

/-- An empty mask, or a selected mode that is neither 0 nor 1. -/
def FloorBad (p : List Byte) : Prop :=
  (bitAt p 0 0 || bitAt p 0 1 || bitAt p 0 2) = false ∨ (bitAt p 0 0 = true ∧ 1 < u8 p 1)

theorem floorMode?_eq_none {n : Nat} (h : 1 < n) : floorMode? n = none := by
  match n, h with
  | _ + 2, _ => rfl

theorem floorMode?_of_le {n : Nat} (h : n ≤ 1) : floorMode? n = some (if n = 0 then .fixed else .auto) := by
  match n, h with
  | 0, _ => rfl
  | 1, _ => rfl

theorem checkStageFloor_badField (hp : p.length = 5) (h : FloorBad p) : checkStageFloor 12 p = .error .badField := by
  rw [checkStageFloor, if_neg (not_not.mpr hp), if_neg (not_not.mpr rfl)]
  by_cases hmask : (floorMaskOf p).selects = false
  · exact if_pos hmask
  · obtain ⟨hmode, hbig⟩ := h.resolve_left hmask
    have hnone : floorEditOf? p = none := (if_pos hmode).trans (by rw [floorMode?_eq_none hbig]; rfl)
    rw [if_neg hmask, hnone]

theorem checkStageFloor_good {e : Edit} (hp : p.length = 5) (hmask : (bitAt p 0 0 || bitAt p 0 1 || bitAt p 0 2) = true)
    (he : floorEditOf? p = some e) : checkStageFloor 12 p = .ok (e, floorClampedOf p) := by
  have hselects : ¬ (floorMaskOf p).selects = false := Bool.not_eq_false _ ▸ hmask
  rw [checkStageFloor, if_neg (not_not.mpr hp), if_neg (not_not.mpr rfl), if_neg hselects, he]

/-- The floor mode that STAGE_FLOOR selects; FIXED, which nothing reads, where it selects none. -/
def floorModeOf (p : List Byte) : FloorMode := if bitAt p 0 0 = true then if u8 p 1 = 0 then .fixed else .auto else .fixed

theorem floorEditOf?_good (h : bitAt p 0 0 = true → u8 p 1 ≤ 1) : floorEditOf? p = some (.floor (floorMaskOf p)
    (floorModeOf p) (if bitAt p 0 1 then min 16383 (u16 p 2) else u16 p 2)
    (if bitAt p 0 2 then min 64 (u8 p 4) else u8 p 4)) := by
  by_cases hmode : bitAt p 0 0 = true
  · rw [floorModeOf, if_pos hmode]
    exact (if_pos hmode).trans (by rw [floorMode?_of_le (h hmode)]; rfl)
  · rw [floorModeOf, if_neg hmode]
    exact if_neg hmode

theorem floorClampedOf_iff (p : List Byte) : floorClampedOf p = true ↔
    (bitAt p 0 1 = true ∧ 16383 < u16 p 2) ∨ (bitAt p 0 2 = true ∧ 64 < u8 p 4) := by
  simp [floorClampedOf, floorMaskOf]

end Floor

/-- Settles O12: the checks of STAGE_CHANNEL and STAGE_FLOOR in their order, and the records presented. -/
theorem stageChannelAndFloorPresent : Obligations.StageChannelAndFloorPresent := by
  unfold Obligations.StageChannelAndFloorPresent
  refine ⟨?_, ?_, ?_, ?_⟩
  · intro l p s hw hp
    have hrefuses {code : ResultCode} (h : checkStageChannel l s p = .error code) :
        Refuses (.stageChannel l) l 0x23#8 code s := exec_stage_refuses rfl rfl hw (congrArg some h)
    refine ⟨fun hbad => hrefuses (checkStageChannel_badField hp hbad), fun hbad hl hother => ?_⟩
    obtain ⟨c, hc⟩ := exists_channel fun h => hbad (.inl h)
    exact hrefuses ((checkStageChannel_good hp hc hbad).trans (if_pos (foreignTile_iff.mpr ⟨hl, hc ▸ hother⟩)))
  · intro p s hw hp hbad
    exact exec_stage_refuses rfl rfl hw (congrArg some (checkStageFloor_badField hp hbad))
  · intro l p s c hw hp hc hmask hraster hown
    have hgood : ¬ ChannelBad p := by
      rintro (h | h | ⟨hm, h⟩)
      · have := c.isLt; omega
      · rw [hmask] at h; cases h
      · have := hraster hm; omega
    have hforeign : ¬ foreignTile l c = true := fun h => hown.elim (foreignTile_iff.mp h).1 (foreignTile_iff.mp h).2
    refine ⟨channelValuesOf p, channelClamped p, fun _ => ⟨rfl, rfl⟩, fun hm => if_pos hm,
      fun hm => ⟨if_pos hm, if_pos hm, if_pos hm⟩, channelClamped_iff p,
      exec_stage_heldOr rfl rfl hw (congrArg some ?_)⟩
    rw [checkStageChannel_good hp hc hgood, if_neg hforeign]
    rfl
  · intro p s hw hp hmask hmode
    exact ⟨floorModeOf p, _, _, floorClampedOf p, fun hm => if_pos hm, fun hm => if_pos hm, fun hm => if_pos hm,
      floorClampedOf_iff p, exec_stage_presents rfl rfl hw
        (congrArg some (checkStageFloor_good hp hmask (floorEditOf?_good hmode)))⟩

/-! #### STAGE_LUT -/

section Lut

variable {l : Link} {p : List Byte} {s : State} {t : LutTarget}

/-- A target or a count out of range. -/
def LutBad (p : List Byte) : Prop := 37 ≤ u8 p 0 ∨ u16 p 3 = 0 ∨ 256 < u16 p 3

theorem lutTarget?_eq_none {n : Nat} (h : 37 ≤ n) : lutTarget? n = none := by
  match n, h with
  | k + 1, h => rw [lutTarget?, chan?_eq_none.mpr (by omega), Option.map_none]

/-- The target of a number: the input LUT for 0, else an output LUT of channel (n − 1) div 3. -/
theorem exists_lutTarget {n : Nat} (h : ¬ 37 ≤ n) : ∃ t, lutTarget? n = some t ∧ t.size = (if n = 0 then 1024 else 1025) ∧
    ∀ l : Link, t.forbids l = true ↔ l ≠ 12 ∧ (n = 0 ∨ (n - 1) / 3 ≠ l.val) := by
  match n with
  | 0 => exact ⟨.input, rfl, rfl, fun l => by simp only [LutTarget.forbids, decide_eq_true_eq, SL]; simp⟩
  | k + 1 =>
    obtain ⟨c, hc⟩ := exists_channel (n := k / 3) (by omega)
    refine ⟨.output c _, by rw [lutTarget?, chan?_eq_some.mpr hc, Option.map_some], rfl, fun l => ?_⟩
    rw [LutTarget.forbids, foreignTile_iff, Nat.add_sub_cancel, hc]
    simp [eq_comm]

theorem lutTarget?_output (c : Channel) (k : Colour) : lutTarget? (1 + 3 * c.val + (match k with
    | .r => 0
    | .g => 1
    | .b => 2)) = some (.output c k) := by
  cases k
  · have hdiv : (3 * c.val) / 3 = c.val := by omega
    have hmod : (3 * c.val) % 3 = 0 := by omega
    rw [show 1 + 3 * c.val + 0 = 3 * c.val + 1 by omega, lutTarget?, chan?_eq_some.mpr hdiv, hmod]
    rfl
  · have hdiv : (3 * c.val + 1) / 3 = c.val := by omega
    have hmod : (3 * c.val + 1) % 3 = 1 := by omega
    rw [show 1 + 3 * c.val + 1 = 3 * c.val + 1 + 1 by omega, lutTarget?, chan?_eq_some.mpr hdiv, hmod]
    rfl
  · have hdiv : (3 * c.val + 2) / 3 = c.val := by omega
    have hmod : (3 * c.val + 2) % 3 = 2 := by omega
    rw [show 1 + 3 * c.val + 2 = 3 * c.val + 2 + 1 by omega, lutTarget?, chan?_eq_some.mpr hdiv, hmod]
    rfl

theorem checkStageLut_badField (hp : p.length = stageLutLength p) (h : LutBad p) :
    checkStageLut l s p = .error .badField := by
  rw [checkStageLut, if_neg (not_not.mpr hp)]
  cases ht : lutTarget? (u8 p 0) with
  | none => rfl
  | some t =>
    refine if_pos (h.resolve_left fun hbig => ?_)
    rw [lutTarget?_eq_none hbig] at ht
    cases ht

theorem checkStageLut_good (hp : p.length = stageLutLength p) (ht : lutTarget? (u8 p 0) = some t)
    (h : ¬ (u16 p 3 = 0 ∨ 256 < u16 p 3)) :
    checkStageLut l s p = if t.size < u16 p 1 + u16 p 3 then .error .badIndex
      else if t.forbids l then .error .notPermitted
      else heldOr l s (.lut t (u16 p 1) (lutValuesOf t p)) (lutClamped t p) := by
  rw [checkStageLut, if_neg (not_not.mpr hp), ht]
  exact if_neg h

end Lut

/-- Settles O13: the checks of STAGE_LUT in their order, and the records presented. -/
theorem stageLutPresents : Obligations.StageLutPresents := by
  unfold Obligations.StageLutPresents
  refine ⟨?_, ?_, ?_⟩
  · intro l p s hw hp
    have hrefuses {code : ResultCode} (h : checkStageLut l s p = .error code) :
        Refuses (.stageLut l) l 0x25#8 code s := exec_stage_refuses rfl rfl hw (congrArg some h)
    refine ⟨fun hbad => hrefuses (checkStageLut_badField hp hbad), fun hbad hrun => ?_, fun hbad hrun hl hother => ?_⟩
    all_goals
      obtain ⟨t, ht, hsize, hforbids⟩ := exists_lutTarget fun h => hbad (.inl h)
      have hgood := checkStageLut_good (l := l) (s := s) hp ht fun h => hbad (.inr h)
      rw [hsize] at hgood
    · exact hrefuses (hgood.trans (if_pos hrun))
    · exact hrefuses (hgood.trans ((if_neg (Nat.not_lt.mpr hrun)).trans (if_pos ((hforbids l).mpr ⟨hl, hother⟩))))
  · intro p s hw hp htarget hlow hhigh hrun
    refine ⟨lutValuesOf .input p, length_lutValuesOf _ p, fun i hi => by simp [lutValuesOf, hi],
      exec_stage_presents rfl rfl hw (congrArg some ?_)⟩
    rw [checkStageLut_good hp (by rw [htarget]; rfl) (by omega)]
    exact (if_neg (Nat.not_lt.mpr hrun)).trans ((if_neg (by decide)).trans (heldOr_SL s _ _))
  · intro l p s c k hw hp htarget hlow hhigh hrun hown
    have hforeign : ¬ (LutTarget.output c k).forbids l = true :=
      fun h => hown.elim (foreignTile_iff.mp h).1 (foreignTile_iff.mp h).2
    refine ⟨lutValuesOf (.output c k) p, lutClamped (.output c k) p, length_lutValuesOf _ p,
      fun i hi => by simp [lutValuesOf, hi], by simp [lutClamped], exec_stage_heldOr rfl rfl hw (congrArg some ?_)⟩
    rw [checkStageLut_good hp (htarget ▸ lutTarget?_output c k) (by omega)]
    exact (if_neg (Nat.not_lt.mpr hrun)).trans (if_neg hforeign)

end Sys2Proof.Proofs

/-! ### COMMIT and ABORT_COMMIT (R91, R99, R100) -/
namespace Sys2Proof.Proofs

open Sys2Proof.Machine

theorem heldTile_iff {l : Link} {s : State} : heldTile l s = true ↔ l ≠ 12 ∧ s.mode = .showing := decide_eq_true_iff

/-- The SHADOW bank becomes a copy of ACTIVE. -/
theorem setShadow_active (t : TableStore) : t.setShadow t.active =
    if t.activeIsB then { t with bankA := t.bankB } else { t with bankB := t.bankA } := by
  unfold TableStore.setShadow TableStore.active
  split <;> rfl

/-- Settles O16: COMMIT in IDLE marks, copies and begins; else HELD or BUSY. -/
theorem commitBegins : Obligations.CommitBegins := by
  unfold Obligations.CommitBegins
  intro l s hw
  rw [exec_takes rfl (.inl rfl) hw, ← setShadow_active, carryOut, commitRequest,
    if_neg (not_not.mpr List.length_nil)]
  by_cases hheld : l ≠ 12 ∧ s.mode = .showing
  · have hheld' : heldTile l (dropOldest l s) = true := heldTile_iff.mpr hheld
    rw [if_pos hheld', refuse_dropOldest]
    exact congrArg Host.Outcome.next (if_pos hheld).symm
  have hheld' : ¬ heldTile l (dropOldest l s) = true := fun h => hheld (heldTile_iff.mp h)
  rw [if_neg hheld', dropOldest_engine]
  dsimp only
  rw [if_neg hheld]
  by_cases hidle : s.engine.state = .idle
  · rw [if_neg (not_not.mpr hidle), if_neg (not_not.mpr hidle)]
    exact congrArg Host.Outcome.next (accept_dropOldest l _ _ (startCommit l s))
  · rw [if_pos hidle, if_pos hidle, respond_dropOldest]
    rfl

/-- A commit with neither the engine in IDLE nor a foreign sender is abandoned (R99, R100). -/
theorem abortRequest_abandons {l : Link} {o : Handing} {s : State} {k : CurrentCommit} (hbusy : s.engine.state ≠ .idle)
    (hk : s.engine.current = some k) :
    abortRequest l o [] (dropOldest l s) =
      if l ≠ 12 ∧ k.link ≠ l then answered l (refusal 0x31#8 .notPermitted) s
      else abortAnswered l o k s := by
  have hdrop : abandonCommit k (dropOldest l s) = dropOldest l (abandonCommit k s) := rfl
  rw [abortRequest, if_neg (not_not.mpr List.length_nil), dropOldest_engine, hk]
  dsimp only
  rw [if_neg hbusy]
  by_cases hforeign : l ≠ 12 ∧ k.link ≠ l
  · rw [if_pos hforeign, refuse_dropOldest]
    exact (if_pos hforeign).symm
  · rw [if_neg hforeign]
    refine Eq.trans ?_ (if_neg hforeign).symm
    cases o <;> simp only [abortAnswered, hdrop, handAll_dropOldest, accept_dropOldest]

/-- Settles O17: ABORT_COMMIT abandons the commit, keeps its records and notifies; else it is refused. -/
theorem abortCommitAbandons : Obligations.AbortCommitAbandons := by
  unfold Obligations.AbortCommitAbandons
  constructor
  · intro l o s hw hidle
    refine exec_refuses rfl (.inl rfl) hw ?_
    rw [carryOut, abortRequest, if_neg (not_not.mpr List.length_nil), dropOldest_engine]
    split
    · rfl
    · exact if_pos hidle
  · intro l o s k hw hbusy hk
    rw [exec_takes rfl (.inl rfl) hw, carryOut, abortRequest_abandons hbusy hk]
    cases o <;> rfl

end Sys2Proof.Proofs

/-! ### Barrier, fade, outputs, raster, mode and mask (R137, R152, R153, R155, R170, R171, R173, R192, R194) -/
namespace Sys2Proof.Proofs

open Sys2Proof.Machine

theorem badChannelMask_iff (m : Nat) : badChannelMask m = true ↔ m = 0 ∨ 4096 ≤ m := decide_eq_true_iff

/-- A channel is in a set exactly where the set's predicate holds of it. -/
theorem getLsbD_channelSet (f : Channel → Bool) (c : Channel) : (channelSet f).getLsbD c.val = f c := by
  have hfold (is : List Nat) : ∀ m : BitVec 12, (is.foldl (fun m i => if h : i < 12 then
      (if f ⟨i, h⟩ then m ||| (1#12 <<< i) else m) else m) m).getLsbD c.val =
        (m.getLsbD c.val || (decide (c.val ∈ is) && f c)) := by
    induction is with
    | nil => simp
    | cons i is ih =>
      intro m
      rw [List.foldl_cons, ih]
      by_cases hc : c.val = i
      · subst hc
        cases hf : f c <;> simp [hf]
      · have hbit : (!decide (c.val < i) && decide (c.val - i = 0)) = false := by
          rw [Bool.and_eq_false_iff, Bool.not_eq_false', decide_eq_true_eq, decide_eq_false_iff_not]
          omega
        by_cases h : i < 12
        · cases hf : f ⟨i, h⟩ <;> simp [h, hf, hc, hbit]
        · simp [h, hc]
  rw [channelSet, hfold]
  simp

theorem badChannelMask_eq_false {m : Nat} (hlow : 0 < m) (hhigh : m < 4096) : ¬ badChannelMask m = true := by
  rw [badChannelMask_iff]
  omega

/-! #### ENROLL and WITHDRAW -/

section Enrollment

variable {l : Link} {p : List Byte}

theorem checkChannels_badField (hp : p.length = 2) (h : u16 p 0 = 0 ∨ 4096 ≤ u16 p 0) :
    checkChannels l p = .error .badField := by
  rw [checkChannels, if_neg (not_not.mpr hp), if_pos ((badChannelMask_iff _).mpr h)]

theorem checkChannels_notPermitted (hp : p.length = 2) (h : ¬ (u16 p 0 = 0 ∨ 4096 ≤ u16 p 0)) (hl : l ≠ 12)
    (hother : u16 p 0 ≠ 2 ^ l.val) : checkChannels l p = .error .notPermitted := by
  rw [checkChannels, if_neg (not_not.mpr hp), if_neg (mt (badChannelMask_iff _).mp h)]
  exact if_pos ⟨hl, hother⟩

theorem checkChannels_good (hp : p.length = 2) (hlow : 0 < u16 p 0) (hhigh : u16 p 0 < 4096)
    (hown : l = 12 ∨ u16 p 0 = 2 ^ l.val) : checkChannels l p = .ok (u16 p 0) := by
  rw [checkChannels, if_neg (not_not.mpr hp), if_neg (badChannelMask_eq_false hlow hhigh)]
  exact if_neg fun h => hown.elim h.1 h.2

/-- What joining and leaving do to the barrier's entry of a channel, in one form. -/
theorem barrierChannel_moves (b : BarrierChannel) (join : Bool) :
    (match join with
      | true => b.enroll
      | false => b.withdraw) =
      if b.enrolled ≠ join then { b with enrolled := join, stalled := false, lateCount := 0 } else b := by
  obtain ⟨enrolled, policy, stalled, lateCount, dark⟩ := b
  cases join <;> cases enrolled <;> rfl

theorem updNamed_channel (m : Nat) (f : BarrierChannel → BarrierChannel) (s : State) (c : Channel) :
    (updNamed m f s).barrier.channels[c] = if m.testBit c.val = true then f s.barrier.channels[c]
      else s.barrier.channels[c] :=
  getElem_updAll _ _ _ c.isLt

theorem exec_enrollment {i : Instr} {k : Byte} {s : State} {f : BarrierChannel → BarrierChannel}
    (hl : requestLink i = some l) (hk : takesKind i k) (hw : Waits l k p s)
    (hi : ∀ s, carryOut { kind := k, payload := p } i s = enrollmentRequest l k f p s)
    (hc : checkChannels l p = .ok (u16 p 0)) :
    exec i s = .next (answered l (acceptance k false (.enrollment (enrollmentSet (updNamed (u16 p 0) f s))))
      (updNamed (u16 p 0) f s)) := by
  rw [exec_takes hl hk hw, hi, enrollmentRequest, hc]
  exact congrArg Host.Outcome.next (accept_dropOldest l k _ (updNamed (u16 p 0) f s))

end Enrollment

/-- Settles O36: ENROLL and WITHDRAW change exactly the channels named. -/
theorem enrollmentChanges : Obligations.EnrollmentChanges := by
  unfold Obligations.EnrollmentChanges
  constructor
  · rintro i l k p s (⟨rfl, rfl⟩ | ⟨rfl, rfl⟩) hw hp
    all_goals
      exact ⟨fun h => exec_refuses rfl (.inl rfl) hw (enrollmentRequest_error (checkChannels_badField hp h)),
        fun h hl hother =>
          exec_refuses rfl (.inl rfl) hw (enrollmentRequest_error (checkChannels_notPermitted hp h hl hother))⟩
  · intro i join l k p s hi hw hp hlow hhigh hown
    have hgood := checkChannels_good hp hlow hhigh hown
    obtain ⟨f, hf, hexec⟩ : ∃ f : BarrierChannel → BarrierChannel, (∀ b, f b = if b.enrolled ≠ join then
          { b with enrolled := join, stalled := false, lateCount := 0 } else b) ∧
        exec i s = .next (answered l (acceptance k false (.enrollment (enrollmentSet (updNamed (u16 p 0) f s))))
          (updNamed (u16 p 0) f s)) := by
      rcases hi with ⟨rfl, rfl, rfl⟩ | ⟨rfl, rfl, rfl⟩
      · exact ⟨_, fun b => barrierChannel_moves b true, exec_enrollment rfl (.inl rfl) hw (fun _ => rfl) hgood⟩
      · exact ⟨_, fun b => barrierChannel_moves b false, exec_enrollment rfl (.inl rfl) hw (fun _ => rfl) hgood⟩
    refine ⟨_, _, hexec, fun c => getLsbD_channelSet _ c, fun c => (updNamed_channel _ _ s c).trans ?_⟩
    rw [hf]
    by_cases hc : (u16 p 0).testBit c.val = true
    · rw [if_pos hc]
      simp only [hc, true_and]
    · rw [if_neg hc, if_neg fun h => hc h.1]

/-! #### SET_BARRIER and SET_CADENCE -/

section Barrier

variable {p : List Byte}

theorem policy?_eq_none {n : Nat} (h : 1 < n) : policy? n = none := by
  match n, h with
  | _ + 2, _ => rfl

theorem policy?_of_le {n : Nat} (h : n ≤ 1) : policy? n = some (if n = 0 then .hold else .dark) := by
  match n, h with
  | 0, _ => rfl
  | 1, _ => rfl

/-- Nothing selected, a selected loss limit of 0, or a selected policy or its channels out of range. -/
def BarrierBad (p : List Byte) : Prop :=
  (bitAt p 0 0 || bitAt p 0 1 || bitAt p 0 2 || bitAt p 0 3) = false ∨ (bitAt p 0 2 = true ∧ u8 p 4 = 0) ∨
    (bitAt p 0 3 = true ∧ (u16 p 5 = 0 ∨ 4096 ≤ u16 p 5 ∨ 1 < u8 p 7))

theorem checkSetBarrier_badField (hp : p.length = 8) (h : BarrierBad p) : checkSetBarrier 12 p = .error .badField := by
  unfold checkSetBarrier
  dsimp only
  rw [if_neg (not_not.mpr hp), if_neg (not_not.mpr rfl)]
  by_cases hmask : (bitAt p 0 0 || bitAt p 0 1 || bitAt p 0 2 || bitAt p 0 3) = false
  · exact if_pos hmask
  rw [if_neg hmask]
  by_cases hloss : bitAt p 0 2 = true ∧ u8 p 4 = 0
  · exact if_pos hloss
  obtain ⟨hpolicy, hbad⟩ := (h.resolve_left hmask).resolve_left hloss
  rw [if_neg hloss, if_pos hpolicy]
  by_cases hchannels : badChannelMask (u16 p 5) = true
  · exact if_pos hchannels
  · rw [badChannelMask_iff] at hchannels
    rw [if_neg (mt (badChannelMask_iff _).mp hchannels), policy?_eq_none (by omega)]

/-- The fields of a SET_BARRIER within its bounds. -/
def barrierFieldsOf (p : List Byte) : BarrierFields :=
  { timeout := if bitAt p 0 0 then some (min 255 (u16 p 1)) else none
    stallLimit := if bitAt p 0 1 then some (min 15 (u8 p 3)) else none
    lossLimit := if bitAt p 0 2 then some (min 15 (u8 p 4)) else none
    policy := if bitAt p 0 3 then some (u16 p 5, if u8 p 7 = 0 then .hold else .dark) else none
    clamped := (bitAt p 0 0 && decide (255 < u16 p 1)) || (bitAt p 0 1 && decide (15 < u8 p 3)) ||
      (bitAt p 0 2 && decide (15 < u8 p 4)) }

theorem checkSetBarrier_good (hp : p.length = 8)
    (hmask : (bitAt p 0 0 || bitAt p 0 1 || bitAt p 0 2 || bitAt p 0 3) = true)
    (hloss : bitAt p 0 2 = true → 0 < u8 p 4)
    (hpolicy : bitAt p 0 3 = true → 0 < u16 p 5 ∧ u16 p 5 < 4096 ∧ u8 p 7 ≤ 1) :
    checkSetBarrier 12 p = .ok (barrierFieldsOf p) := by
  unfold checkSetBarrier barrierFieldsOf
  dsimp only
  rw [if_neg (not_not.mpr hp), if_neg (not_not.mpr rfl), if_neg (by rw [hmask]; decide),
    if_neg fun h => absurd h.2 (Nat.ne_of_gt (hloss h.1))]
  by_cases h : bitAt p 0 3 = true
  · obtain ⟨hlow, hhigh, hle⟩ := hpolicy h
    rw [if_pos h, if_neg (badChannelMask_eq_false hlow hhigh), policy?_of_le hle, if_pos h]
  · rw [if_neg h, if_neg h]

theorem getD_selected (sel : Bool) (v old : Nat) : (if sel then some v else none).getD old = if sel = true then v else old := by
  cases sel <;> rfl

theorem checkSetCadence_good (hp : p.length = 1) (hlow : 1 ≤ u8 p 0) (hhigh : u8 p 0 ≤ 4) :
    checkSetCadence 12 p = .ok (u8 p 0) := by
  rw [checkSetCadence, if_neg (not_not.mpr hp), if_neg (not_not.mpr rfl), if_neg (by omega)]

theorem checkSetCadence_badField (hp : p.length = 1) (h : u8 p 0 = 0 ∨ 4 < u8 p 0) :
    checkSetCadence 12 p = .error .badField := by
  rw [checkSetCadence, if_neg (not_not.mpr hp), if_neg (not_not.mpr rfl), if_pos (by omega)]

/-- What SET_BARRIER leaves of the barrier. -/
theorem setFields_fieldsOf (b : Barrier) (p : List Byte) : b.setFields (barrierFieldsOf p) = { b with
    timeout := if bitAt p 0 0 = true then min 255 (u16 p 1) else b.timeout
    stallLimit := if bitAt p 0 1 = true then min 15 (u8 p 3) else b.stallLimit
    lossLimit := if bitAt p 0 2 = true then min 15 (u8 p 4) else b.lossLimit
    channels := Vector.ofFn fun c => { b.channels[c] with
      lateCount := 0
      policy := if bitAt p 0 3 = true ∧ (u16 p 5).testBit c.val = true then (if u8 p 7 = 0 then .hold else .dark)
        else (b.channels[c]).policy } } := by
  have hchannels : (b.setFields (barrierFieldsOf p)).channels = Vector.ofFn fun c => { b.channels[c] with
      lateCount := 0
      policy := if bitAt p 0 3 = true ∧ (u16 p 5).testBit c.val = true then (if u8 p 7 = 0 then .hold else .dark)
        else (b.channels[c]).policy } := by
    refine vector_ext fun c => (setFields_channel b _ c).trans ?_
    simp only [barrierFieldsOf, Vector.getElem_ofFn, Fin.getElem_fin]
    by_cases h : bitAt p 0 3 = true
    · simp only [h, if_true, true_and]
      rfl
    · simp [h]
  rw [← hchannels, ← getD_selected, ← getD_selected, ← getD_selected]
  rfl

end Barrier

/-- Settles O37: SET_BARRIER writes the values selected, clamped, and zeroes the late counts; SET_CADENCE writes the latch. -/
theorem barrierSettings : Obligations.BarrierSettings := by
  unfold Obligations.BarrierSettings
  refine ⟨?_, ?_, ?_, ?_⟩
  · intro p s hw hp hbad
    exact exec_refuses rfl (.inl rfl) hw (setBarrierRequest_error (checkSetBarrier_badField hp hbad))
  · intro p s hw hp hbad
    exact exec_refuses rfl (.inl rfl) hw (setCadenceRequest_error (checkSetCadence_badField hp hbad))
  · intro p s hw hp hmask hloss hpolicy
    have hclamped : (barrierFieldsOf p).clamped = decide ((bitAt p 0 0 = true ∧ 255 < u16 p 1) ∨
        (bitAt p 0 1 = true ∧ 15 < u8 p 3) ∨ (bitAt p 0 2 = true ∧ 15 < u8 p 4)) := by
      simp [barrierFieldsOf, Bool.decide_or, Bool.decide_and, Bool.or_assoc]
    rw [exec_takes rfl (.inl rfl) hw, carryOut, setBarrierRequest, checkSetBarrier_good hp hmask hloss hpolicy, ← hclamped]
    dsimp only
    rw [dropOldest_barrier, setFields_fieldsOf]
    exact congrArg Host.Outcome.next (acceptClamped_dropOldest 12 _ _ _ { s with barrier := _ })
  · intro p s hw hp hlow hhigh
    rw [exec_takes rfl (.inl rfl) hw, carryOut, setCadenceRequest, checkSetCadence_good hp hlow hhigh]
    exact congrArg Host.Outcome.next
      (accept_dropOldest 12 _ _ { s with barrier := { s.barrier with reload := u8 p 0 } })

/-! #### FADE, OUTPUT_ON, OUTPUT_OFF and SET_RASTER -/

section Outputs

variable {p : List Byte} {s : State}

theorem checkOutputs_badField (hp : p.length = 2) (h : u16 p 0 = 0 ∨ 4096 ≤ u16 p 0) :
    checkOutputs 12 p = .error .badField := by
  rw [checkOutputs, if_neg (not_not.mpr hp), if_neg (not_not.mpr rfl), if_pos ((badChannelMask_iff _).mpr h)]

theorem checkOutputs_good (hp : p.length = 2) (hlow : 0 < u16 p 0) (hhigh : u16 p 0 < 4096) :
    checkOutputs 12 p = .ok (u16 p 0) := by
  rw [checkOutputs, if_neg (not_not.mpr hp), if_neg (not_not.mpr rfl), if_neg (badChannelMask_eq_false hlow hhigh)]

theorem exec_outputs {i : Instr} {k : Byte} {f : OutputState → OutputState} (hl : requestLink i = some 12)
    (hk : takesKind i k) (hw : Waits 12 k p s)
    (hi : ∀ s, carryOut { kind := k, payload := p } i s = outputsRequest 12 k f p s)
    (hc : checkOutputs 12 p = .ok (u16 p 0)) :
    exec i s = .next (answered 12 (acceptance k false (.outputs (s.timing.updOutputs (u16 p 0) f).outputs.toList))
      { s with timing := s.timing.updOutputs (u16 p 0) f }) := by
  rw [exec_takes hl hk hw, hi, outputsRequest, hc]
  exact congrArg Host.Outcome.next (accept_dropOldest 12 k _ { s with timing := s.timing.updOutputs (u16 p 0) f })

theorem updOutputs_output (t : Timing) (m : Nat) (f : OutputState → OutputState) (c : Channel) :
    (t.updOutputs m f).outputs[c] = if m.testBit c.val = true then f t.outputs[c] else t.outputs[c] :=
  getElem_updAll _ _ _ c.isLt

end Outputs

/-- Settles O38: FADE sets target and remaining, OUTPUT_ON and OUTPUT_OFF move each output named. -/
theorem fadeAndOutputsSet : Obligations.FadeAndOutputsSet := by
  unfold Obligations.FadeAndOutputsSet
  refine ⟨?_, ?_, ?_⟩
  · rintro i k p s (⟨rfl, rfl⟩ | ⟨rfl, rfl⟩) hw hp hbad
    · exact exec_refuses rfl (.inl rfl) hw (outputsRequest_error (checkOutputs_badField hp hbad))
    · exact exec_refuses rfl (.inl rfl) hw (outputsRequest_error (checkOutputs_badField hp hbad))
  · intro p s hw hp
    rw [exec_takes rfl (.inl rfl) hw, carryOut, fadeRequest, if_neg (not_not.mpr hp), if_neg (not_not.mpr rfl)]
    exact congrArg Host.Outcome.next (acceptClamped_dropOldest 12 _ _ _ { s with fade := _ })
  · rintro i on k p s (⟨rfl, rfl, rfl⟩ | ⟨rfl, rfl, rfl⟩) hw hp hlow hhigh
    all_goals
      refine ⟨_, exec_outputs rfl (.inl rfl) hw (fun _ => rfl) (checkOutputs_good hp hlow hhigh), fun c => ?_⟩
      rw [updOutputs_output]
      cases s.timing.outputs[c] <;> rfl

theorem any_output_on_iff (os : Vector OutputState 12) :
    os.toList.any (fun o => decide (o ≠ .disabled)) = true ↔ ∃ c : Channel, os[c] ≠ .disabled := by
  simp only [List.any_eq_true, decide_eq_true_eq, Vector.mem_toList_iff, Vector.mem_iff_getElem]
  constructor
  · rintro ⟨o, ⟨j, hj, rfl⟩, ho⟩
    exact ⟨⟨j, hj⟩, ho⟩
  · rintro ⟨c, hc⟩
    exact ⟨_, ⟨c.val, c.isLt, rfl⟩, hc⟩

/-- Settles O40: the checks of SET_RASTER in their order, and the raster set. -/
theorem setRasterChecked : Obligations.SetRasterChecked := by
  unfold Obligations.SetRasterChecked
  intro p s hw hp
  rw [exec_takes rfl (.inl rfl) hw]
  refine congrArg Host.Outcome.next ?_
  rw [carryOut, setRasterRequest]
  dsimp only
  rw [if_neg (not_not.mpr hp), if_neg (not_not.mpr rfl), dropOldest_mode, dropOldest_timing]
  by_cases hrange : u16 p 0 < 640 ∨ 2560 < u16 p 0 ∨ u16 p 2 < 480 ∨ 1600 < u16 p 2
  · rw [if_pos hrange, if_pos hrange, refuse_dropOldest]
    rfl
  rw [if_neg hrange, if_neg hrange]
  by_cases hmode : s.mode = .showing
  · rw [if_pos hmode, if_pos hmode, refuse_dropOldest]
    rfl
  rw [if_neg hmode, if_neg hmode]
  by_cases hon : ∃ c : Channel, s.timing.outputs[c] ≠ .disabled
  · rw [if_pos hon, if_pos ((any_output_on_iff _).mpr hon), refuse_dropOldest]
    rfl
  · rw [if_neg hon, if_neg (mt (any_output_on_iff _).mp hon)]
    exact accept_dropOldest 12 _ _ { s with timing := { s.timing with width := u16 p 0, height := u16 p 2 } }

/-! #### SET_MODE and SET_NOTICES -/

theorem mode?_eq_none {n : Nat} (h : 1 < n) : mode? n = none := by
  match n, h with
  | _ + 2, _ => rfl

theorem mode?_of_le {n : Nat} (h : n ≤ 1) : mode? n = some (if n = 0 then .setup else .showing) := by
  match n, h with
  | 0, _ => rfl
  | 1, _ => rfl

/-- Settles O44: SET_MODE sets the mode, SET_NOTICES the mask of its own link. -/
theorem modeAndNoticeMask : Obligations.ModeAndNoticeMask := by
  unfold Obligations.ModeAndNoticeMask
  constructor
  · intro p s hw hp
    rw [exec_takes rfl (.inl rfl) hw]
    refine congrArg Host.Outcome.next ?_
    rw [carryOut, setModeRequest, if_neg (not_not.mpr hp), if_neg (not_not.mpr rfl)]
    by_cases hbig : 1 < u8 p 0
    · rw [if_pos hbig, mode?_eq_none hbig]
      exact refuse_dropOldest 12 _ _ s
    · rw [if_neg hbig, mode?_of_le (Nat.le_of_not_lt hbig)]
      exact accept_dropOldest 12 _ _ { s with mode := _ }
  · intro l p s hw hp
    rw [exec_takes rfl (.inl rfl) hw]
    refine congrArg Host.Outcome.next ?_
    rw [carryOut, setNoticesRequest, if_neg (not_not.mpr hp)]
    by_cases hbig : 15 < u8 p 0
    · have hbig' : 16 ≤ u8 p 0 := hbig
      rw [if_pos hbig', if_pos hbig]
      exact refuse_dropOldest l _ _ s
    · have hbig' : ¬ 16 ≤ u8 p 0 := hbig
      rw [if_neg hbig', if_neg hbig, mask_dropOldest, accept_dropOldest]
      rfl

/-! #### SET_TIMING -/

theorem checkSetTiming_badField {p : List Byte} (hp : p.length = 2)
    (h : 1 < u8 p 0 ∨ (u8 p 0 = 0 ∧ (u8 p 1 < 24 ∨ 144 < u8 p 1))) : checkSetTiming 12 p = .error .badField := by
  rw [checkSetTiming, if_neg (not_not.mpr hp), if_neg (not_not.mpr rfl), if_neg (by omega)]
  by_cases h0 : u8 p 0 = 0
  · rw [if_neg (not_not.mpr h0), if_pos (by omega)]
  · exact if_pos h0

theorem checkSetTiming_good {p : List Byte} (hp : p.length = 2)
    (h : u8 p 0 = 1 ∨ (u8 p 0 = 0 ∧ 24 ≤ u8 p 1 ∧ u8 p 1 ≤ 144)) :
    checkSetTiming 12 p = .ok (if u8 p 0 = 0 then .internal (u8 p 1) else .external) := by
  rw [checkSetTiming, if_neg (not_not.mpr hp), if_neg (not_not.mpr rfl)]
  rcases h with h | ⟨h0, hlow, hhigh⟩
  · rw [if_pos h, if_neg (by omega)]
  · rw [if_neg (by omega), if_neg (not_not.mpr h0), if_neg (by omega), if_pos h0]

/-- A TIMING notice as a list of what is handed: nothing without a change of state. -/
theorem notifyTiming_eq (prev : TimingState) (s : State) : notifyTiming prev s = handAll
    (if s.timing.state = prev then [] else [(12, .timing s.timing.state prev s.timing.source s.timing.period)]) s := by
  unfold notifyTiming
  split <;> rfl

/-- A SET_TIMING answered and notified, with the notice as a list. -/
theorem timingSet_eq (taking : TimingTaking) (choice : TimingChoice) (s : State) : timingSet 12 taking choice s =
    let t := timingChosen taking choice s
    let notices : List (Link × NoticeBody) :=
      if t.state = s.timing.state then [] else [(12, .timing t.state s.timing.state t.source t.period)]
    match taking.order with
    | .responseFirst => handAll notices (answered 12 (timingAnswer t) { s with timing := t })
    | .noticeFirst => answered 12 (timingAnswer t) (handAll notices { s with timing := t }) := by
  unfold timingSet
  cases taking.order
  · exact notifyTiming_eq _ _
  · exact congrArg (answered 12 _) (notifyTiming_eq _ _)

/-- An accepted SET_TIMING, with the frame start it finds overdue (R162). -/
theorem exec_setTiming {taking : TimingTaking} {p : List Byte} {s : State} {choice : TimingChoice}
    (hw : Waits 12 0x53#8 p s) (hc : checkSetTiming 12 p = .ok choice) :
    exec (.setTiming 12 taking) s = if (timingChosen taking choice s).overdue then
        exec (.outputFrameStart taking.race) (timingSet 12 taking choice s)
      else .next (timingSet 12 taking choice s) := by
  have hheld : (timingSet 12 taking choice s).resetHeld = false := by
    rw [timingSet_frame]
    exact hw.1
  have hstart : exec (.outputFrameStart taking.race) (timingSet 12 taking choice s) =
      .next (takeStart taking.race periodElapsed (timingSet 12 taking choice s)) := takeEvent_ready hheld _
  rw [exec_takes rfl (.inl rfl) hw, carryOut, setTimingRequest, hc, hstart, ← answerTiming_dropOldest,
    show timingChosen taking choice s = timingChosen taking choice (dropOldest 12 s) from rfl]
  exact (apply_ite Host.Outcome.next _ _ _)

theorem overdue_external (taking : TimingTaking) (s : State) : (timingChosen taking .external s).overdue = false :=
  decide_eq_false fun h => nomatch h.1

theorem overdue_internal (taking : TimingTaking) (rate : Nat) (s : State) :
    (timingChosen taking (.internal rate) s).overdue = true ↔
      s.timing.lastFrameStart + 1000000000 / rate < max s.timing.clock taking.time :=
  decide_eq_true_iff.trans (and_iff_right rfl)

/-- Settles O39: SET_TIMING is checked, selects the source, notifies, and takes an output frame start that is overdue. -/
theorem setTimingSelects : Obligations.SetTimingSelects := by
  unfold Obligations.SetTimingSelects
  intro k p s hw hp
  refine ⟨fun h => exec_refuses rfl (.inl rfl) hw (setTimingRequest_error (checkSetTiming_badField hp h)), fun h => ?_⟩
  rw [exec_setTiming hw (checkSetTiming_good hp h), timingSet_eq]
  by_cases h0 : u8 p 0 = 0
  · simp only [h0, if_true, true_and, overdue_internal]
    rfl
  · simp only [h0, if_false, false_and, overdue_external]
    rfl

end Sys2Proof.Proofs

/-! ### Fields on the line (R179, R190, R200, R204, R210 to R213)

Each code of the model and the code the tables give are the same byte; the records and messages follow field by field. -/
namespace Sys2Proof.Proofs

open Sys2Proof.Machine

@[simp] theorem length_leBytes (n v : Nat) : (leBytes n v).length = n := by simp [leBytes]

theorem leBytes_zero (v : Nat) : leBytes 0 v = [] := rfl

/-- Least significant byte first. -/
theorem leBytes_succ (n v : Nat) : leBytes (n + 1) v = BitVec.ofNat 8 v :: leBytes n (v / 256) := by
  simp only [leBytes, List.range_succ_eq_map, List.map_cons, List.map_map, Nat.pow_zero, Nat.div_one]
  refine congrArg (_ :: ·) (List.map_congr_left fun i _ => ?_)
  rw [Function.comp_apply, Nat.pow_succ', Nat.div_div_eq_div_mul]

theorem leBytes_one (v : Nat) : leBytes 1 v = [BitVec.ofNat 8 v] := by rw [leBytes_succ, leBytes_zero]

section Codes

theorem flagByte_eq (b : Bool) : flagByte b = [Wire.flag b] := by cases b <;> rfl

theorem flagBits_eq (b : Bool) : leBytes 1 (if b then 1 else 0) = [Wire.flag b] := flagByte_eq b

theorem resultCode_eq (c : ResultCode) : leBytes 1 c.code = [Wire.code c] := by cases c <;> rfl

theorem modeCode_eq (m : Mode) : leBytes 1 m.code = [Wire.mode m] := by cases m <;> rfl

theorem sourceCode_eq (c : TimingSource) : leBytes 1 c.code = [Wire.source c] := by cases c <;> rfl

theorem timingCode_eq (c : TimingState) : leBytes 1 c.code = [Wire.timing c] := by cases c <;> rfl

theorem floorModeCode_eq (c : FloorMode) : leBytes 1 c.code = [Wire.floorMode c] := by cases c <;> rfl

theorem commitCode_eq (c : CommitState) : leBytes 1 c.code = [Wire.commit c] := by cases c <;> rfl

theorem commitResultCode_eq (c : CommitResult) : leBytes 1 c.code = [Wire.result c] := by cases c <;> rfl

theorem commitErrorCode_eq (c : CommitError) : leBytes 1 c.code = [Wire.error c] := by cases c <;> rfl

theorem receiverCode_eq (c : ReceiverState) : leBytes 1 c.code = [Wire.receiver c] := by cases c <;> rfl

theorem bankCode_eq (c : BankState) : leBytes 1 c.code = [Wire.bank c] := by cases c <;> rfl

theorem outputCode_eq (c : OutputState) : leBytes 1 c.code = [Wire.output c] := by cases c <;> rfl

theorem policyCode_eq (c : StallPolicy) : leBytes 1 c.code = [Wire.policy c] := by cases c <;> rfl

theorem maskCode_eq (m : NoticeMask) : leBytes 1 m.code = [Wire.notices m] := by
  obtain ⟨release, commit, channel, timing⟩ := m
  revert release commit channel timing
  decide

theorem linkCode_eq (l : Link) : leBytes 1 l.val = [Wire.link (some l)] := leBytes_one _

theorem linkOption_eq (l : Option Link) : leOption 1 (l.map Fin.val) = [Wire.link l] := by
  cases l with
  | none => rfl
  | some l => exact linkCode_eq l

theorem channelCode_eq (c : Channel) : leBytes 1 c.val = [Wire.channel c] := leBytes_one _

theorem itemBytes_eq (i : Option Item) : itemBytes i = Wire.item i := by
  match i with
  | none => rfl
  | some (.point _ _) => rfl
  | some (.node c n) => rw [itemBytes, channelCode_eq, Wire.item, List.singleton_append]

theorem leOption_none2 : leOption 2 none = [0xFF#8, 0xFF#8] := by decide

theorem leOption_none4 : leOption 4 none = [0xFF#8, 0xFF#8, 0xFF#8, 0xFF#8] := by decide

theorem presentTag_eq (t : Option Word32) : presentTag t = Wire.tag t := by
  cases t with
  | none => exact congrArg (leBytes 1 0 ++ ·) leOption_none4
  | some w => exact congrArg (· ++ Wire.word w) (leBytes_one 1)

theorem floorPartBytes_eq (f : FloorPart) : floorPartBytes f = Wire.floor f := by
  rw [floorPartBytes, flagByte_eq, Wire.floor]

theorem length_item (i : Option Item) : (Wire.item i).length = 3 := by
  match i with
  | none => rfl
  | some (.point _ _) => rfl
  | some (.node _ _) => rfl

end Codes

/-! #### READ_NODES and READ_SEAM (R16, R35) -/

section Reads

variable {l : Link} {p : List Byte} {s : State}

theorem bankSelector?_eq_none {n : Nat} (h : 1 < n) : bankSelector? n = none := by
  match n, h with
  | _ + 2, _ => rfl

theorem bankSelector?_of_le {n : Nat} (h : n ≤ 1) : bankSelector? n = some (decide (n = 1)) := by
  match n, h with
  | 0, _ => rfl
  | 1, _ => rfl

/-- The bank a read selects: ACTIVE, or SHADOW while ARMED (R16). -/
theorem readBank_selected {n : Nat} (hn : n ≤ 1) (h : n = 1 → s.engine.state = .armed) :
    readBank (decide (n = 1)) s = some (if n = 0 then s.tables.active else s.tables.shadow) := by
  match n, hn with
  | 0, _ => rfl
  | 1, _ => exact if_pos (h rfl)

theorem readBank_notArmed {n : Nat} (hn : n = 1) (h : s.engine.state ≠ .armed) : readBank (decide (n = 1)) s = none := by
  subst hn
  exact if_neg h

/-- A bank, a channel or a count out of range. -/
def ReadNodesBad (p : List Byte) : Prop := 1 < u8 p 0 ∨ 12 ≤ u8 p 1 ∨ u8 p 4 = 0 ∨ 64 < u8 p 4

theorem checkReadNodes_badField (hp : p.length = 5) (h : ReadNodesBad p) : checkReadNodes s p = .error .badField := by
  rw [checkReadNodes, if_neg (not_not.mpr hp)]
  by_cases hbank : 1 < u8 p 0
  · rw [bankSelector?_eq_none hbank]
  rw [bankSelector?_of_le (Nat.le_of_not_lt hbank)]
  by_cases hchannel : 12 ≤ u8 p 1
  · rw [chan?_eq_none.mpr hchannel]
  obtain ⟨c, hc⟩ := exists_channel hchannel
  rw [chan?_eq_some.mpr hc]
  exact if_pos ((h.resolve_left hbank).resolve_left hchannel)

/-- What a read answers of the bank selected: NOT_ARMED where it may not be read (R16). -/
def ofBank {α : Type} (b : Option Bank) (f : Bank → α) : Except ResultCode α :=
  b.elim (.error .notArmed) fun b => .ok (f b)

theorem ofBank_some {α : Type} (b : Bank) (f : Bank → α) : ofBank (some b) f = .ok (f b) := rfl

theorem checkReadNodes_good {c : Channel} (hp : p.length = 5) (hc : u8 p 1 = c.val) (h : ¬ ReadNodesBad p) :
    checkReadNodes s p = if 1066 < u16 p 2 + u8 p 4 then .error .badIndex
      else ofBank (readBank (decide (u8 p 0 = 1)) s) fun b => (b, c, u16 p 2, u8 p 4) := by
  rw [checkReadNodes, if_neg (not_not.mpr hp), bankSelector?_of_le (Nat.le_of_not_lt fun hb => h (.inl hb)),
    chan?_eq_some.mpr hc]
  refine (if_neg fun hcount => h (.inr (.inr hcount))).trans ?_
  cases readBank (decide (u8 p 0 = 1)) s <;> rfl

theorem checkReadSeam_badField (hp : p.length = 2) (h : 1 < u8 p 0 ∨ 48 ≤ u8 p 1) :
    checkReadSeam s p = .error .badField := by
  rw [checkReadSeam, if_neg (not_not.mpr hp)]
  by_cases hbank : 1 < u8 p 0
  · rw [bankSelector?_eq_none hbank]
  · rw [bankSelector?_of_le (Nat.le_of_not_lt hbank), seam?_eq_none.mpr (h.resolve_left hbank)]

theorem checkReadSeam_good {id : SeamId} (hp : p.length = 2) (hbank : u8 p 0 ≤ 1) (hid : u8 p 1 = id.val) :
    checkReadSeam s p = ofBank (readBank (decide (u8 p 0 = 1)) s) fun b => (b, id) := by
  rw [checkReadSeam, if_neg (not_not.mpr hp), bankSelector?_of_le hbank, seam?_eq_some.mpr hid]
  dsimp only
  cases readBank (decide (u8 p 0 = 1)) s <;> rfl

end Reads

/-- Settles O46: READ_NODES and READ_SEAM return ACTIVE, or SHADOW while ARMED. -/
theorem tablesReadBack : Obligations.TablesReadBack := by
  unfold Obligations.TablesReadBack
  refine ⟨?_, ?_, ?_, ?_⟩
  · intro l p s hw hp
    refine ⟨fun hbad => exec_refuses rfl (.inl rfl) hw (readNodesRequest_error (checkReadNodes_badField hp hbad)),
      fun hbad hrun => ?_⟩
    obtain ⟨c, hc⟩ := exists_channel fun h => hbad (.inr (.inl h))
    exact exec_refuses rfl (.inl rfl) hw (readNodesRequest_error ((checkReadNodes_good hp hc hbad).trans (if_pos hrun)))
  · intro l p s hw hp hbad
    exact exec_refuses rfl (.inl rfl) hw (readSeamRequest_error (checkReadSeam_badField hp hbad))
  · intro l p s c hw hp hbank hc hlow hhigh hrun
    have hgood := (checkReadNodes_good (s := dropOldest l s) hp hc (by
      rintro (h | h | h | h)
      · omega
      · have := c.isLt; omega
      · omega
      · omega)).trans (if_neg (Nat.not_lt.mpr hrun))
    constructor
    · intro h1 harmed
      rw [readBank_notArmed h1 (by exact harmed)] at hgood
      exact exec_refuses rfl (.inl rfl) hw (readNodesRequest_error hgood)
    · intro h
      rw [readBank_selected hbank (by exact h), ofBank_some] at hgood
      refine ⟨(if u8 p 0 = 0 then s.tables.active else s.tables.shadow).nodeRun c (u16 p 2) (u8 p 4), ?_,
        by simp [Bank.nodeRun], fun j hj => by simp [Bank.nodeRun, hj]⟩
      rw [exec_takes rfl (.inl rfl) hw, carryOut, readNodesRequest, hgood]
      exact congrArg Host.Outcome.next (accept_dropOldest l _ _ s)
  · intro l p s id hw hp hbank hid
    have hgood := checkReadSeam_good (s := dropOldest l s) hp hbank hid
    constructor
    · intro h1 harmed
      rw [readBank_notArmed h1 (by exact harmed)] at hgood
      exact exec_refuses rfl (.inl rfl) hw (readSeamRequest_error hgood)
    · intro h
      rw [readBank_selected hbank (by exact h), ofBank_some] at hgood
      dsimp only at hgood ⊢
      rw [exec_takes rfl (.inl rfl) hw, carryOut, readSeamRequest, hgood]
      simp only [dropOldest_tables]
      cases (if u8 p 0 = 0 then s.tables.active else s.tables.shadow).seams[id] with
      | none => exact congrArg Host.Outcome.next (respond_dropOldest l _ s)
      | some m => exact congrArg Host.Outcome.next (accept_dropOldest l _ _ s)

/-! #### READ_STATUS (R209 to R213) -/

theorem globalBytes_eq (g : GlobalStatus) : (Body.globalStatus g).bytes =
    [Wire.mode g.mode, Wire.source g.source, Wire.timing g.timingState] ++ leBytes 1 g.rate ++ leBytes 4 g.period ++
    leBytes 2 g.width ++ leBytes 2 g.height ++
    [Wire.floorMode g.floorMode] ++ leBytes 2 g.phiSet ++ leBytes 1 g.tau ++ leBytes 2 g.phi ++
    [Wire.commit g.commitState, Wire.result g.last.outcome.result, Wire.error g.last.outcome.error] ++
    Wire.item g.last.outcome.item ++ [Wire.link g.last.outcome.link] ++ leBytes 2 g.last.outcome.count ++
    (match g.last.outcome.swapFrame with
      | none => [0xFF#8, 0xFF#8, 0xFF#8, 0xFF#8]
      | some n => Wire.word n) ++ Wire.floor g.last.floor ++
    leBytes 2 g.occupancy ++ leBytes 2 g.recordCount ++ (match g.mark with
      | none => [0xFF#8, 0xFF#8, 0xFF#8, 0xFF#8]
      | some m => leBytes 2 m.count ++ leBytes 2 m.units) ++
    Wire.word g.skyFrame ++ Wire.channels g.enrolled ++ Wire.channels g.stalled ++ Wire.channels g.dark ++
    leBytes 1 g.reload ++ leBytes 1 g.cadence ++ leBytes 1 g.timeout ++ leBytes 1 g.stallLimit ++
    leBytes 1 g.lossLimit ++ leBytes 2 g.waitCount ++
    leBytes 2 g.fade.level ++ leBytes 2 g.fade.target ++ leBytes 2 g.fade.remaining := by
  have hframe : leOption 4 (g.last.outcome.swapFrame.map BitVec.toNat) = (match g.last.outcome.swapFrame with
      | none => [0xFF#8, 0xFF#8, 0xFF#8, 0xFF#8]
      | some n => Wire.word n) := by
    cases g.last.outcome.swapFrame with
    | none => exact leOption_none4
    | some n => rfl
  have hmark : leOption 2 (g.mark.map Mark.count) ++ leOption 2 (g.mark.map Mark.units) = (match g.mark with
      | none => [0xFF#8, 0xFF#8, 0xFF#8, 0xFF#8]
      | some m => leBytes 2 m.count ++ leBytes 2 m.units) := by
    cases g.mark with
    | none => exact congrArg₂ (· ++ ·) leOption_none2 leOption_none2
    | some m => rfl
  rw [← hframe, ← hmark]
  rw [show (Body.globalStatus g).bytes = globalBytes g from rfl]
  unfold globalBytes lastResultBytes fadeBytes
  simp only [modeCode_eq, sourceCode_eq, timingCode_eq, floorModeCode_eq]
  simp only [commitCode_eq, commitResultCode_eq, commitErrorCode_eq, itemBytes_eq, linkOption_eq, flagByte_eq]
  simp only [Wire.word, Wire.channels, Wire.floor]
  simp only [List.append_assoc, List.cons_append, List.nil_append]

theorem channelBytes_eq (r : ChannelStatus) : (Body.channelStatus r).bytes =
    [Wire.channel r.channel, Wire.receiver r.receiver] ++ leBytes 1 r.lossCount ++
    r.banks.flatMap (fun b => Wire.bank b.1 :: Wire.word b.2) ++
    [match r.malformed with
      | none => 0xFF#8
      | some f => Wire.flag f, Wire.output r.output] ++
    [Wire.flag r.barrier.enrolled, Wire.flag r.barrier.stalled, Wire.flag r.barrier.dark] ++
    leBytes 1 r.barrier.lateCount ++ [Wire.policy r.barrier.policy] ++
    leBytes 2 r.record.width ++ leBytes 2 r.record.height ++ leBytes 2 r.record.beta ++ leBytes 2 r.record.gainR ++
    leBytes 2 r.record.gainG ++ leBytes 2 r.record.gainB := by
  have hmalformed : leOption 1 (r.malformed.map fun f => if f then 1 else 0) = [match r.malformed with
      | none => 0xFF#8
      | some f => Wire.flag f] := by
    cases r.malformed with
    | none => rfl
    | some f => exact flagBits_eq f
  have hcons : [match r.malformed with
      | none => 0xFF#8
      | some f => Wire.flag f, Wire.output r.output] = [match r.malformed with
      | none => 0xFF#8
      | some f => Wire.flag f] ++ [Wire.output r.output] := rfl
  rw [hcons, ← hmalformed]
  rw [show (Body.channelStatus r).bytes = channelBytes r from rfl]
  simp only [channelBytes, channelCode_eq, receiverCode_eq, bankCode_eq, outputCode_eq, flagByte_eq,
    policyCode_eq, Wire.word, List.append_assoc, List.cons_append, List.nil_append]

theorem length_globalBytes (g : GlobalStatus) : (Body.globalStatus g).bytes.length = 67 := by
  rw [globalBytes_eq]
  cases g.last.outcome.swapFrame <;> cases g.mark <;> simp [length_item, Wire.floor, Wire.word, Wire.channels]

theorem length_channelBytes (s : State) (c : Channel) : (Body.channelStatus (channelStatus s c)).bytes.length = 37 := by
  rw [channelBytes_eq]
  simp [channelStatus, Wire.word]

/-- The three banks in order. -/
theorem banks_toList_map {α : Type} (r : Receiver) (f : FrameBank → α) :
    [f r.banks[0], f r.banks[1], f r.banks[2]] = r.banks.toList.map f := by
  refine List.ext_getElem (by simp) fun i hi _ => ?_
  match i, hi with
  | 0, _ => simp
  | 1, _ => simp
  | 2, _ => simp

/-- Settles O47: READ_STATUS answers each field as its owner holds it, in the table's order, width and code. -/
theorem statusRecords : Obligations.StatusRecords := by
  unfold Obligations.StatusRecords
  intro l p s hw hp
  have hexec (r : Response) (h : readStatusRequest l p (dropOldest l s) = respond l r (dropOldest l s)) :
      exec (.readStatus l) s = .next (answered l r s) := by
    rw [exec_takes rfl (.inl rfl) hw, carryOut, h, respond_dropOldest]
  refine ⟨fun hall => ?_, fun c hc => ?_, fun hbig hall => ?_⟩
  · have hcheck : checkReadStatus p = .ok none := by
      rw [checkReadStatus, if_neg (not_not.mpr hp), if_pos hall]
    refine ⟨globalStatus s, hexec _ (by rw [readStatusRequest, hcheck]; rfl), length_globalBytes _, globalBytes_eq _, ?_⟩
    exact ⟨rfl, rfl, rfl, rfl, rfl, rfl, rfl, rfl, rfl, rfl, rfl, rfl, rfl, rfl, rfl, rfl, rfl,
      fun c => ⟨getLsbD_channelSet _ c, getLsbD_channelSet _ c, getLsbD_channelSet _ c⟩, rfl, rfl, rfl, rfl, rfl, rfl, rfl⟩
  · have hcheck : checkReadStatus p = .ok (some c) := by
      have := c.isLt
      rw [checkReadStatus, if_neg (not_not.mpr hp), if_neg (by omega), chan?_eq_some.mpr hc]
    refine ⟨channelStatus s c, hexec _ (by rw [readStatusRequest, hcheck]; rfl), length_channelBytes s c,
      channelBytes_eq _, rfl, rfl, rfl, ?_, fun hnone => ?_, fun hok i hi => ?_, rfl, rfl, rfl⟩
    · exact banks_toList_map s.receivers[c] fun b => (b.state, b.tag)
    · have hfilling : s.receivers[c].bankIn .filling = none := by
        by_contra hsome
        obtain ⟨i, hi⟩ := (Receiver.bankIn_isSome _ _).mp (Option.isSome_iff_ne_none.mpr hsome)
        exact hnone i hi
      exact congrArg (Option.map _) hfilling
    · exact congrArg (Option.map _) (bankIn_eq_of_soleIn (soleIn_filling hok) hi)
  · have hcheck : checkReadStatus p = .error .badField := by
      rw [checkReadStatus, if_neg (not_not.mpr hp), if_neg hall, chan?_eq_none.mpr hbig]
    exact exec_refuses rfl (.inl rfl) hw (readStatusRequest_error hcheck)

end Sys2Proof.Proofs

/-! ### Hard reset (R201) and RESTART (R202, R203) -/
namespace Sys2Proof.Proofs

open Sys2Proof.Machine

/-! #### The blocks -/

theorem resetBanks_bank (r : Receiver) (i : Fin 3) : r.resetBanks.banks[i] =
    if i = 0 then FrameBank.cleared else { r.banks[i] with state := .free, tag := 0, malformed := false } :=
  getElem_updAll r.banks (fun i b => if i = 0 then FrameBank.cleared else
    { b with state := .free, tag := 0, malformed := false }) i.val i.isLt

theorem portReset_eq (l : Link) : Port.reset l =
    { line := .isOpen, rx := .hunt, buffer := [], inProcess := none, outbound := [], sent := 0, txLine := []
      mask := { release := true, commit := true, channel := true, timing := decide (l = 12) }, lostFlag := false } := rfl

/-- Settles O4: the hard-reset values of every block. -/
theorem hardResetValues : Obligations.HardResetValues := by
  unfold Obligations.HardResetValues
  intro i held s hi
  have hexec : exec i s = .next (hardResetState held s) := by
    rcases hi with ⟨rfl, hs, rfl⟩ | ⟨rfl, hs, rfl⟩
    · exact congrArg Host.Outcome.next (if_neg (by rw [hs]; exact Bool.false_ne_true))
    · exact congrArg Host.Outcome.next (if_pos hs)
  have hreceiver (c : Channel) : (hardResetState held s).receivers[c] = s.receivers[c].resetBanks :=
    getElem_updAll s.receivers (fun _ r => r.resetBanks) c.val c.isLt
  refine ⟨_, hexec, rfl, rfl, rfl, rfl, rfl, fun c => ?_, rfl, rfl, rfl, fun c => ?_, fun n => ?_,
    fun l => (reset_port l).trans (portReset_eq l), rfl⟩
  · rw [hreceiver]
    exact ⟨rfl, rfl, rfl, resetBanks_bank _ 0, resetBanks_bank _ 1, resetBanks_bank _ 2⟩
  · exact Vector.getElem_replicate _
  · exact Vector.getElem_replicate _

theorem restarted_of_current {e : CommitEngine} {k : CurrentCommit} (hs : e.state ≠ .idle) (hk : e.current = some k) :
    e.restarted = e.finish (abortedOutcome k) := by
  obtain ⟨state, current, last⟩ := e
  cases hk
  cases state with
  | idle => exact absurd rfl hs
  | _ => rfl

theorem restarted_of_idle {e : CommitEngine} (hs : e.state = .idle) : e.restarted = e := by
  obtain ⟨state, current, last⟩ := e
  cases hs
  rfl

theorem restarted_state (e : CommitEngine) : e.restarted.state = .idle := by
  by_cases hs : e.state = .idle
  · rw [restarted_of_idle hs, hs]
  · cases hk : e.current with
    | some k => rw [restarted_of_current hs hk]; rfl
    | none =>
      obtain ⟨state, current, last⟩ := e
      cases hk
      cases state <;> rfl

/-! #### What the notices of a list leave of one port -/

/-- The notices of a list that go to a link. -/
def bodiesFor (l : Link) (ns : List (Link × NoticeBody)) : List NoticeBody :=
  (ns.filter fun n => decide (n.1 = l)).map Prod.snd

/-- A port once notices are handed to it, one after another. -/
def portHanded (l : Link) (p : Port) (bs : List NoticeBody) : Port :=
  bs.foldl (fun p b => (p.hand (noticeChannel l b) b).1) p

theorem hand_port (l : Link) (b : NoticeBody) (s : State) :
    (hand l b s).ports[l] = (s.ports[l].hand (noticeChannel l b) b).1 := by
  rw [hand_eq]
  simp

theorem bodiesFor_same {l : Link} {n : Link × NoticeBody} (h : n.1 = l) (ns : List (Link × NoticeBody)) :
    bodiesFor l (n :: ns) = n.2 :: bodiesFor l ns := by
  rw [bodiesFor, List.filter_cons_of_pos (by simpa using h), List.map_cons, bodiesFor]

theorem bodiesFor_other {l : Link} {n : Link × NoticeBody} (h : n.1 ≠ l) (ns : List (Link × NoticeBody)) :
    bodiesFor l (n :: ns) = bodiesFor l ns := by
  rw [bodiesFor, List.filter_cons_of_neg (by simpa using h), bodiesFor]

theorem handAll_portHanded (l : Link) (ns : List (Link × NoticeBody)) :
    ∀ s : State, (handAll ns s).ports[l] = portHanded l s.ports[l] (bodiesFor l ns) := by
  induction ns with
  | nil => exact fun _ => rfl
  | cons n ns ih =>
    intro s
    rw [handAll, ih]
    by_cases hn : n.1 = l
    · rw [bodiesFor_same hn, ← hn, hand_port]
      rfl
    · rw [bodiesFor_other hn, hand_other hn]

theorem portHanded_held (l : Link) (bs : List NoticeBody) : ∀ p : Port, PortHeld p (portHanded l p bs) := by
  induction bs with
  | nil => exact fun _ => rfl
  | cons b bs ih =>
    intro p
    have hrest : PortHeld (p.hand (noticeChannel l b) b).1 (portHanded l p (b :: bs)) := ih _
    unfold PortHeld at hrest ⊢
    rw [hrest, Port.hand_held p (noticeChannel l b) b]

theorem portHanded_responses (l : Link) (bs : List NoticeBody) :
    ∀ p : Port, responsesIn (portHanded l p bs).outbound = responsesIn p.outbound := by
  induction bs with
  | nil => exact fun _ => rfl
  | cons b bs ih => exact fun p => (ih _).trans (Port.hand_responses p _ b)

/-- A COMMIT notice goes to a link at most once. -/
theorem bodiesFor_toCommitter (l k : Link) (b : NoticeBody) :
    bodiesFor l (toCommitter k b) = if l = k ∨ l = 12 then [b] else [] := by
  unfold toCommitter
  by_cases hk : k = SL
  · subst hk
    by_cases hl : SL = l
    · simp [bodiesFor, hl]
    · have hl' : ¬ (l = SL ∨ l = 12) := fun h => h.elim (fun e => hl e.symm) fun e => hl e.symm
      rw [if_pos rfl, if_neg hl']
      simp [bodiesFor, hl]
  · rw [if_neg hk]
    by_cases hlk : k = l
    · subst hlk
      have hsl : ¬ SL = k := fun e => hk e.symm
      simp [bodiesFor, hsl]
    · by_cases hl : SL = l
      · subst hl
        simp [bodiesFor, hlk, SL]
      · have hl' : ¬ (l = k ∨ l = 12) := fun h => h.elim (fun e => hlk e.symm) fun e => hl e.symm
        rw [if_neg hl']
        simp [bodiesFor, hlk, hl]

/-- A port with room for a notice keeps what it holds. -/
theorem portHand_grows {p : Port} (ch : Option Channel) (b : NoticeBody) (hroom : noticeCount p.outbound < 15) :
    ∃ rest, (p.hand ch b).1.outbound = p.outbound ++ rest := by
  cases hmask : p.mask.admits b.kind with
  | false => exact ⟨[], by rw [portHand_masked ch hmask, List.append_nil]⟩
  | true => exact ⟨_, by rw [portHand_appends ch hmask hroom]⟩

/-! #### RESTART at a port -/

/-- The answer to a request in process: BUSY with an empty body (R203). -/
def busyAnswer (p : Port) : List OutMessage := match p.inProcess with
  | none => []
  | some q => [.response (refusal q.kind .busy)]

/-- The port once its request in process is answered BUSY. -/
def busied (p : Port) : Port := { p with inProcess := none, outbound := p.outbound ++ busyAnswer p }

theorem withdrawBusy_eq (p : Port) : p.withdrawBusy = busied p := by
  obtain ⟨line, rx, buffer, inProcess, outbound, sent, txLine, mask, lostFlag⟩ := p
  cases inProcess with
  | none => exact congrArg (fun q => Port.mk line rx buffer none q sent txLine mask lostFlag) (List.append_nil _).symm
  | some q => rfl

theorem answerBusy_port (s : State) (l : Link) : (answerBusy s).ports[l] = busied s.ports[l] :=
  (getElem_updAll s.ports (fun _ p => p.withdrawBusy) l.val l.isLt).trans (withdrawBusy_eq _)

/-- The port once RESTART is answered, where it is SL's. -/
def restartAsked (l : Link) (p : Port) : Port :=
  if l = 12 then { p with buffer := p.buffer.tail, outbound := p.outbound ++ [.response (acceptance 0x61#8 false .empty)] }
  else p

theorem answered_port (l : Link) (s : State) :
    (answered 12 (acceptance Kind.restart false .empty) s).ports[l] = restartAsked l s.ports[l] := by
  unfold restartAsked
  by_cases hl : l = 12
  · subst hl
    rw [if_pos rfl]
    exact withPort_same 12 _ s
  · rw [if_neg hl]
    exact withPort_other (Ne.symm hl) _ s

/-- A port as RESTART leaves it, from the notices of the engine. -/
def restartPort (o : Handing) (l : Link) (told : List (Link × NoticeBody)) (p : Port) : Port :=
  match o with
  | .responseFirst => portHanded l (busied (restartAsked l p)) (bodiesFor l told)
  | .noticeFirst => busied (portHanded l (restartAsked l p) (bodiesFor l told))

theorem restart_port (o : Handing) (s : State) (l : Link) :
    (restart o (answered 12 (acceptance Kind.restart false .empty) s)).ports[l] =
      restartPort o l (restartNotices s.engine) s.ports[l] := by
  have hports (t : State) (cs : Vector Word32 157) : ({ t with counters := cs } : State).ports[l] = t.ports[l] := rfl
  unfold restart
  cases o <;> dsimp only
  · rw [handAll_portHanded, answerBusy_port, restartBlocks_ports, answered_port, answered_engine]
    rfl
  · rw [answerBusy_port, handAll_portHanded, restartBlocks_ports, answered_port, answered_engine]
    rfl

/-- What RESTART keeps of a port (R203). -/
theorem restartPort_held (o : Handing) (l : Link) (told : List (Link × NoticeBody)) (p : Port) :
    restartPort o l told p = { p with
      inProcess := none
      buffer := if l = 12 then p.buffer.tail else p.buffer
      outbound := (restartPort o l told p).outbound
      lostFlag := (restartPort o l told p).lostFlag } := by
  obtain ⟨q, hasked⟩ : ∃ q, restartAsked l p = { p with
      buffer := if l = 12 then p.buffer.tail else p.buffer, outbound := q } := by
    unfold restartAsked
    split <;> exact ⟨_, rfl⟩
  cases o <;> simp only [restartPort, hasked]
  · exact portHanded_held l (bodiesFor l told) (busied _)
  · rw [busied, portHanded_held l (bodiesFor l told) { p with buffer := _, outbound := q }]

/-- The responses RESTART leaves in the queue of a port (R202, R203). -/
theorem restartPort_responses (o : Handing) (l : Link) (told : List (Link × NoticeBody)) (p : Port) :
    responsesIn (restartPort o l told p).outbound =
      responsesIn (restartAsked l p).outbound ++ responsesIn (busyAnswer p) := by
  have hasked : busyAnswer (restartAsked l p) = busyAnswer p := by
    unfold restartAsked
    split <;> rfl
  cases o
  · rw [restartPort, portHanded_responses, busied, responsesIn_append, hasked]
  · have hbusy : busyAnswer (portHanded l (restartAsked l p) (bodiesFor l told)) = busyAnswer p := by
      rw [portHanded_held l (bodiesFor l told) (restartAsked l p)]
      exact hasked
    rw [restartPort, busied, responsesIn_append, portHanded_responses, hbusy]

theorem noticeCount_busied (p : Port) : noticeCount (busied p).outbound = noticeCount p.outbound := by
  have hbusy : noticeCount (busyAnswer p) = 0 := by
    unfold busyAnswer
    split <;> rfl
  rw [busied, noticeCount_append, hbusy, Nat.add_zero]

theorem noticeCount_asked (l : Link) (p : Port) : noticeCount (restartAsked l p).outbound = noticeCount p.outbound := by
  unfold restartAsked
  split
  · exact noticeCount_append _ _
  · rfl

/-- A queue with room for a notice keeps all it held, through at most one notice. -/
theorem portHanded_grows {l : Link} {p : Port} {bs : List NoticeBody} (h : bs.length ≤ 1)
    (hroom : noticeCount p.outbound < 15) : ∃ rest, (portHanded l p bs).outbound = p.outbound ++ rest := by
  match bs, h with
  | [], _ => exact ⟨[], (List.append_nil _).symm⟩
  | [b], _ => exact portHand_grows _ b hroom

theorem restartPort_grows {o : Handing} {l : Link} {told : List (Link × NoticeBody)} {p : Port}
    (htold : (bodiesFor l told).length ≤ 1) (hroom : noticeCount p.outbound < 15) :
    ∃ rest, (restartPort o l told p).outbound = p.outbound ++ rest := by
  obtain ⟨rest₁, hasked⟩ : ∃ rest, (restartAsked l p).outbound = p.outbound ++ rest := by
    unfold restartAsked
    split
    · exact ⟨_, rfl⟩
    · exact ⟨[], (List.append_nil _).symm⟩
  cases o
  · obtain ⟨rest₂, hhanded⟩ := portHanded_grows (l := l) (p := busied (restartAsked l p)) htold
      (by rw [noticeCount_busied, noticeCount_asked]; exact hroom)
    exact ⟨rest₁ ++ (busyAnswer (restartAsked l p) ++ rest₂), by
      rw [restartPort, hhanded, busied, hasked, List.append_assoc, List.append_assoc]⟩
  · obtain ⟨rest₂, hhanded⟩ := portHanded_grows (l := l) (p := restartAsked l p) htold
      (by rw [noticeCount_asked]; exact hroom)
    exact ⟨rest₁ ++ (rest₂ ++ busyAnswer (portHanded l (restartAsked l p) (bodiesFor l told))), by
      rw [restartPort, busied, hhanded, hasked, List.append_assoc, List.append_assoc]⟩

theorem bodiesFor_restartNotices (l : Link) (e : CommitEngine) : (bodiesFor l (restartNotices e)).length ≤ 1 := by
  unfold restartNotices
  split
  · exact Nat.zero_le 1
  · exact Nat.zero_le 1
  · rw [show commitHands = toCommitter from rfl, bodiesFor_toCommitter]
    split
    · exact Nat.le_refl 1
    · exact Nat.zero_le 1

/-- The notices of RESTART by the state and the current commit found. -/
def restartTold : CommitState → Option CurrentCommit → List (Link × NoticeBody)
  | .idle, _ => []
  | _, none => []
  | st, some k => toCommitter k.link (.aborted k.link k.count st .restart)

theorem restartNotices_eq (e : CommitEngine) : restartNotices e = restartTold e.state e.current := by
  obtain ⟨state, current, last⟩ := e
  cases state <;> cases current <;> rfl

theorem restartPort_first (l : Link) (told : List (Link × NoticeBody)) (s : State) :
    (handAll told { s with ports := Vector.ofFn fun m => busied (restartAsked m s.ports[m]) }).ports[l] =
      restartPort .responseFirst l told s.ports[l] := by
  have hport : (Vector.ofFn fun m => busied (restartAsked m s.ports[m]))[l] = busied (restartAsked l s.ports[l]) :=
    Vector.getElem_ofFn _
  rw [handAll_portHanded, hport]
  rfl

theorem restartPort_second (l : Link) (told : List (Link × NoticeBody)) (s : State) :
    busied (handAll told { s with ports := Vector.ofFn fun m => restartAsked m s.ports[m] }).ports[l] =
      restartPort .noticeFirst l told s.ports[l] := by
  have hport : (Vector.ofFn fun m => restartAsked m s.ports[m])[l] = restartAsked l s.ports[l] :=
    Vector.getElem_ofFn _
  rw [handAll_portHanded, hport]
  rfl

/-- Settles O45: what RESTART resets, keeps and answers. -/
theorem restartResets : Obligations.RestartResets := by
  unfold Obligations.RestartResets
  intro o s hw
  have hexec : exec (.restart 12 o) s = .next (restart o (answered 12 (acceptance Kind.restart false .empty) s)) := by
    rw [exec_takes rfl (.inl rfl) hw, carryOut, restartRequest, if_neg (not_not.mpr List.length_nil),
      if_neg (not_not.mpr rfl), accept_dropOldest]
  obtain ⟨hreset, hidle, hnotices, -⟩ := hw
  have hport := restart_port o s
  have hframe := restart_frame o (s := answered 12 (acceptance Kind.restart false .empty) s)
  generalize restart o (answered 12 (acceptance Kind.restart false .empty) s) = t at hexec hport hframe
  have hengine : t.engine = s.engine.restarted := by rw [hframe]; rfl
  have hengines : t.engines = updAll s.engines fun _ e =>
      { e with context := e.context.map fun x => { x with contentOff := true } } := by rw [hframe]; rfl
  have hcounters : t.counters = Vector.replicate 157 0 := by rw [hframe]
  have hreceiver (c : Channel) : t.receivers[c] = s.receivers[c].resetBanks := by
    rw [hframe]
    exact getElem_updAll s.receivers (fun _ r => r.resetBanks) c.val c.isLt
  refine ⟨t, hexec, ?_, ?_, ?_, ?_, ?_, ?_, ?_, ?_, ?_, ?_, ?_, ?_, ?_, ?_, ?_, ?_, ?_, ?_, ?_⟩
  · rw [hframe]; exact hreset
  · rw [hframe]; rfl
  · rw [hframe]; rfl
  · rw [hframe]; rfl
  · rw [hframe]; rfl
  · rw [hframe]; rfl
  · rw [hengine]; exact restarted_state _
  · intro hs
    rw [hengine, restarted_of_idle hs]
  · intro k hs hk
    rw [hengine, restarted_of_current hs hk]
    rfl
  · intro c
    rw [hreceiver]
    refine ⟨rfl, rfl, rfl, resetBanks_bank _ 0, fun j hj => ?_⟩
    rw [resetBanks_bank, if_neg hj]
  · rw [hframe]; rfl
  · rw [hframe]; rfl
  · intro c
    rw [hengines]
    exact getElem_updAll s.engines (fun _ e => { e with context := e.context.map fun x => { x with contentOff := true } })
      c.val c.isLt
  · intro n
    rw [hcounters, Fin.getElem_fin, Vector.getElem_replicate]
  · intro l
    rw [hport]
    exact restartPort_held o l _ _
  · intro asked ended told l
    rw [hport, restartNotices_eq]
    cases o
    · exact (restartPort_first l _ s).symm
    · exact (restartPort_second l _ s).symm
  · intro l hroom
    rw [hport]
    exact restartPort_grows (bodiesFor_restartNotices l _) hroom
  · rw [hport, restartPort_responses, busyAnswer, hidle, restartAsked, if_pos rfl, responsesIn_append,
      (responsesIn_eq_nil_iff _).mpr hnotices]
    rfl
  · intro l hl
    rw [hport, restartPort_responses, restartAsked, if_neg hl, busyAnswer]
    cases s.ports[l].inProcess <;> rfl

end Sys2Proof.Proofs

/-! ### LINE (R121)

What a row reads as once pixels are written over its front, and from it what a LINE leaves of a frame bank. -/
namespace Sys2Proof.Proofs

open Sys2Proof.Machine

/-- Reading below the bound of a filtered table gives the default, and at or above it what was there. -/
theorem getEntry_filter_le {α : Type} (d : Nat → α) (l : List (Nat × α)) (n x : Nat) :
    getEntry d (l.filter fun e => decide (n ≤ e.1)) x = if n ≤ x then getEntry d l x else d x := by
  induction l with
  | nil => simp [getEntry]
  | cons e t ih =>
    obtain ⟨k, w⟩ := e
    by_cases hk : n ≤ k
    · rw [List.filter_cons_of_pos (by simpa using hk), getEntry, getEntry, ih]
      by_cases hx : k = x
      · rw [if_pos hx, if_pos hx, if_pos (hx ▸ hk)]
      · rw [if_neg hx, if_neg hx]
    · rw [List.filter_cons_of_neg (by simpa using hk), ih, getEntry]
      by_cases hn : n ≤ x
      · rw [if_pos hn, if_pos hn, if_neg fun hx : k = x => hk (hx ▸ hn)]
      · rw [if_neg hn, if_neg hn]

/-- Pixels listed from a position on, before entries behind them. -/
theorem getEntry_pixelEntries (rest : List (Nat × Pixel)) (x : Nat) (ps : List Pixel) :
    ∀ k : Nat, (∀ e ∈ rest, k + ps.length ≤ e.1) →
      getEntry blackPixel (((ps.zipIdx k).filterMap fun p => if p.1 = Pixel.black then none else some (p.2, p.1)) ++ rest) x =
        if k ≤ x ∧ x < k + ps.length then ps.getD (x - k) Pixel.black else getEntry blackPixel rest x := by
  induction ps with
  | nil =>
    intro k _
    rw [if_neg (by simp only [List.length_nil]; omega)]
    rfl
  | cons p ps ih =>
    intro k hrest
    rw [List.length_cons] at hrest
    have htail := ih (k + 1) fun e he => by have := hrest e he; omega
    by_cases hx : x = k
    · subst hx
      have hunlisted : getEntry blackPixel rest x = Pixel.black := getEntry_unlisted blackPixel rest x fun hmem => by
        obtain ⟨e, he, hkey⟩ := List.mem_map.mp hmem
        have := hrest e he
        omega
      rw [if_neg (by omega), hunlisted] at htail
      rw [if_pos (by rw [List.length_cons]; omega), Nat.sub_self, List.getD_cons_zero, List.zipIdx_cons,
        List.filterMap_cons]
      by_cases hp : p = Pixel.black
      · simp only [hp, if_true]
        exact htail
      · simp only [hp, if_false, List.cons_append, getEntry, if_true]
    · have hcons : (k + 1 ≤ x ∧ x < k + 1 + ps.length) ↔ (k ≤ x ∧ x < k + (p :: ps).length) := by
        rw [List.length_cons]
        omega
      have hshift : k + 1 ≤ x → (p :: ps).getD (x - k) Pixel.black = ps.getD (x - (k + 1)) Pixel.black := fun hle => by
        rw [show x - k = (x - (k + 1)) + 1 by omega, List.getD_cons_succ]
      have hsame : getEntry blackPixel ((((p :: ps).zipIdx k).filterMap
          fun p => if p.1 = Pixel.black then none else some (p.2, p.1)) ++ rest) x =
            getEntry blackPixel (((ps.zipIdx (k + 1)).filterMap
              fun p => if p.1 = Pixel.black then none else some (p.2, p.1)) ++ rest) x := by
        rw [List.zipIdx_cons, List.filterMap_cons]
        by_cases hp : p = Pixel.black
        · simp only [hp, if_true]
        · simp only [hp, if_false, List.cons_append, getEntry, if_neg fun e => hx (Eq.symm e)]
      rw [hsame, htail]
      by_cases hin : k + 1 ≤ x ∧ x < k + 1 + ps.length
      · rw [if_pos hin, if_pos (hcons.mp hin), hshift hin.1]
      · rw [if_neg hin, if_neg (mt hcons.mpr hin)]

/-- A row reads as the pixels written where they reach, and behind them as before. -/
theorem rowWrite_get (old : Row) (ps : List Pixel) (x : Nat) : (rowWrite old ps).get blackPixel x =
    if x < ps.length then ps.getD x Pixel.black else old.get blackPixel x := by
  have h := getEntry_pixelEntries (old.entries.filter fun e => decide (ps.length ≤ e.1)) x ps 0 fun e he => by
    simpa using (List.mem_filter.mp he).2
  rw [getEntry_filter_le] at h
  rw [rowWrite, Table.get, h]
  by_cases hx : x < ps.length
  · rw [if_pos ⟨Nat.zero_le x, by omega⟩, if_pos hx, Nat.sub_zero]
  · rw [if_neg (by omega), if_neg hx, if_pos (Nat.le_of_not_lt hx), Table.get]

theorem writeRow_pixel (f : FrameBank) (row : Nat) (ps : List Pixel) (x y : Nat) : (f.writeRow row ps).pixel x y =
    if row = y ∧ x < ps.length then ps.getD x Pixel.black else f.pixel x y := by
  rw [FrameBank.pixel, FrameBank.writeRow, Table.get_set]
  by_cases hrow : row = y
  · rw [if_pos hrow, rowWrite_get, hrow]
    simp only [true_and, FrameBank.pixel]
  · rw [if_neg hrow, if_neg fun h => hrow h.1, FrameBank.pixel]

theorem lineWritten_pixel {width height n : Nat} (hn : 1 ≤ n) (ps : List Pixel) (b : FrameBank) (x y : Nat) :
    (lineWritten width height n ps b).pixel x y =
      if y + 1 = n ∧ y < height ∧ x < width ∧ x < ps.length then ps.getD x Pixel.black else b.pixel x y := by
  have hrows : (lineWritten width height n ps b).pixel x y =
      (if n ≤ height then b.writeRow (n - 1) (ps.take width) else b).pixel x y := rfl
  rw [hrows]
  by_cases hheight : n ≤ height
  · rw [if_pos hheight, writeRow_pixel, List.length_take]
    by_cases hin : n - 1 = y ∧ x < min width ps.length
    · rw [if_pos hin, if_pos (by omega), List.getD_eq_getElem?_getD, List.getD_eq_getElem?_getD,
        List.getElem?_take_of_lt (by omega)]
    · rw [if_neg hin, if_neg (by omega)]
  · rw [if_neg hheight, if_neg (by omega)]

theorem lineWritten_tag (width height n : Nat) (ps : List Pixel) (b : FrameBank) :
    (lineWritten width height n ps b).tag = b.tag := by
  unfold lineWritten
  split <;> rfl

/-- Settles O26: a LINE outside RECEIVING is ignored; in RECEIVING it is counted and fills its row. -/
theorem lineFillsItsRow : Obligations.LineFillsItsRow := by
  unfold Obligations.LineFillsItsRow
  have hexec (c : Channel) (ps : List Pixel) (s : State) (hr : s.resetHeld = false) :
      exec (.line c ps) s = .next (takeLine c ps s) := takeEvent_ready hr _
  constructor
  · intro c ps s hr hs
    have hsame : upd s.receivers c (fun r => r.line (s.tables.active.records[c]).width
        (s.tables.active.records[c]).height ps) = s.receivers := by
      refine vector_ext fun c' => (getElem_upd _ _ _ _ c'.isLt).trans ?_
      by_cases hc : c.val = c'.val
      · rw [if_pos hc]
        obtain rfl : c = c' := Fin.ext hc
        exact line_ignored _ _ ps hs
      · rw [if_neg hc]
        rfl
    rw [hexec c ps s hr, takeLine]
    rw [hsame]
  · intro c ps s i hr hok hs hi
    refine ⟨_, (hexec c ps s hr).trans ?_, (lineWritten_state _ _ _ _ _).trans hi, lineWritten_tag _ _ _ _ _, rfl,
      lineWritten_wf _ _ _ _ (hok.codes i), fun x y => lineWritten_pixel (by omega) ps _ x y⟩
    rw [takeLine, show upd s.receivers c _ = put s.receivers c _ from rfl,
      line_of_filling _ _ ps hs (bankIn_eq_of_soleIn (soleIn_filling hok) hi)]
    rfl

end Sys2Proof.Proofs

/-! ### A framed message arrives (R179 to R183)

Every byte but the last moves the receiver of one link alone; the state of the receiver is followed from HUNT to CHECK. -/
namespace Sys2Proof.Proofs

open Sys2Proof.Machine

/-! #### The receiver byte by byte -/

theorem byte_headerEmpty (k : Byte) {low high : Byte} (h : low.toNat + 256 * high.toNat = 0) :
    (Rx.header [k, low]).byte high = (.check k [] none, .quiet) := headerDone_empty k h

theorem byte_headerPayload (k : Byte) {low high : Byte} (hmax : low.toNat + 256 * high.toNat ≤ 2048)
    (h : low.toNat + 256 * high.toNat ≠ 0) :
    (Rx.header [k, low]).byte high = (.payload k (low.toNat + 256 * high.toNat) [], .quiet) :=
  headerDone_payload k (Nat.not_lt.mpr hmax) h

theorem byte_payloadMore (k b : Byte) {n : Nat} {taken : List Byte} (h : taken.length + 1 < n) :
    (Rx.payload k n taken).byte b = (.payload k n (taken ++ [b]), .quiet) := if_pos h

theorem byte_payloadLast (k b : Byte) {n : Nat} {taken : List Byte} (h : ¬ taken.length + 1 < n) :
    (Rx.payload k n taken).byte b = (.check k (taken ++ [b]) none, .quiet) := if_neg h

section Framing

variable {l : Link} {s : State}

theorem runAll_next {i : Instr} {is : List Instr} {t : State} (h : exec i s = .next t) :
    runAll (i :: is) s = runAll is t := by
  rw [runAll, h]

theorem setRx_setRx (r r' : Rx) (s : State) : setRx l r' (setRx l r s) = setRx l r' s := by
  simp only [setRx, upd_upd]

theorem setRx_port (r : Rx) (s : State) : (setRx l r s).ports[l] = { s.ports[l] with rx := r } := by simp [setRx]

/-- A receiver set to the state it is in. -/
theorem setRx_self {r : Rx} (h : s.ports[l].rx = r) : setRx l r s = s := by
  subst h
  exact withPort_self l s

variable (hr : s.resetHeld = false) (hopen : s.ports[l].line = .isOpen)

include hr hopen

theorem exec_byte (r : Rx) (b : Byte) :
    exec (.linkByte l b) (setRx l r s) = .next (rxEffect l (r.byte b).2 (setRx l (r.byte b).1 s)) := by
  have hrx : (setRx l r s).ports[l].rx = r := by rw [setRx_port]
  have hline : (setRx l r s).ports[l].line = .isOpen := by rw [setRx_port]; exact hopen
  rw [exec_linkByte (show (setRx l r s).resetHeld = false from hr), takeByte_open hline, hrx, setRx_setRx]

/-- A byte that only moves the receiver. -/
theorem runAll_byte {r r' : Rx} {b : Byte} (h : r.byte b = (r', .quiet)) (bs : List Byte) :
    runAll ((b :: bs).map (Instr.linkByte l)) (setRx l r s) = runAll (bs.map (Instr.linkByte l)) (setRx l r' s) := by
  rw [List.map_cons, runAll_next (exec_byte hr hopen r b), h]
  rfl

/-- The payload received byte by byte. -/
theorem runAll_payload (k : Byte) (n : Nat) (rest : List Byte) : ∀ (bs taken : List Byte), bs ≠ [] →
    taken.length + bs.length = n →
    runAll ((bs ++ rest).map (Instr.linkByte l)) (setRx l (.payload k n taken) s) =
      runAll (rest.map (Instr.linkByte l)) (setRx l (.check k (taken ++ bs) none) s) := by
  intro bs
  induction bs with
  | nil => exact fun _ h => absurd rfl h
  | cons b bs ih =>
    intro taken _ hlength
    rw [List.length_cons] at hlength
    rw [List.cons_append]
    by_cases hlast : bs = []
    · subst hlast
      exact runAll_byte hr hopen (byte_payloadLast k b (by rw [List.length_nil] at hlength; omega)) rest
    · have hpos := List.length_pos_iff.mpr hlast
      rw [runAll_byte hr hopen (byte_payloadMore k b (by omega)), ih (taken ++ [b]) hlast
        (by rw [List.length_append, List.length_singleton]; omega), List.append_assoc, List.singleton_append]

end Framing

/-- Two bytes carry a number below 65536. -/
theorem leBytes_two {n : Nat} (h : n < 65536) : ∃ low high : Byte, leBytes 2 n = [low, high] ∧
    low.toNat + 256 * high.toNat = n := by
  refine ⟨_, _, by rw [leBytes_succ, leBytes_one], ?_⟩
  rw [BitVec.toNat_ofNat, BitVec.toNat_ofNat]
  omega

/-- Settles O50: a message as the part frames it arrives whole. -/
theorem framedMessageArrives : Obligations.FramedMessageArrives := by
  unfold Obligations.FramedMessageArrives
  intro l k p s hr hopen hrx hlength
  obtain ⟨low, high, hbytes, hvalue⟩ := leBytes_two (n := p.length) (by omega)
  obtain ⟨clow, chigh, hcrc, hcheck⟩ := leBytes_two (crc (k :: (leBytes 2 p.length ++ p))).isLt
  have hmessage : messageBytes k p = 0xA5#8 :: k :: low :: high :: (p ++ [clow, chigh]) := by
    rw [messageBytes, hcrc, hbytes]
    simp
  have hbody : runAll ((high :: (p ++ [clow, chigh])).map (Instr.linkByte l)) (setRx l (.header [k, low]) s) =
      runAll ([clow, chigh].map (Instr.linkByte l)) (setRx l (.check k p none) s) := by
    have hmax : low.toNat + 256 * high.toNat ≤ 2048 := by omega
    by_cases hempty : p = []
    · subst hempty
      exact runAll_byte hr hopen (byte_headerEmpty k hvalue) _
    · have hpos := List.length_pos_iff.mpr hempty
      rw [runAll_byte hr hopen (byte_headerPayload k hmax (by omega)),
        runAll_payload hr hopen k _ _ p [] hempty (by rw [List.length_nil, hvalue, Nat.zero_add]), List.nil_append]
  have hjudge : judgeCheck k p clow chigh = .complete { kind := k, payload := p } := by
    rw [judgeCheck_eq, if_pos hcheck.symm]
  have hlast : runAll ([chigh].map (Instr.linkByte l)) (setRx l (.check k p (some clow)) s) =
      .next (offerMessage l { kind := k, payload := p } (setRx l .hunt s)) := by
    refine runAll_next ?_
    rw [exec_byte hr hopen, Rx.byte, hjudge]
    rfl
  have hrun := runAll_byte hr hopen (r := .hunt) (b := 0xA5#8) rfl (k :: low :: high :: (p ++ [clow, chigh]))
  rw [setRx_self hrx, runAll_byte hr hopen (r' := .header [k]) rfl, runAll_byte hr hopen (r' := .header [k, low]) rfl,
    hbody, runAll_byte hr hopen (r' := .check k p (some clow)) rfl, hlast, offerMessage_setRx, ← hrx, withPort_self] at hrun
  rw [hmessage]
  exact hrun

end Sys2Proof.Proofs

/-! ### Messages on the line, link breaks and the transmitter (R179, R182, R185, R186, R190, R195, R196, R200) -/
namespace Sys2Proof.Proofs

open Sys2Proof.Machine

/-! #### The layouts -/

theorem messageBytes_eq (k : Byte) (p : List Byte) : messageBytes k p = Wire.frame k p := by
  simp [messageBytes, Wire.frame]

theorem flatMap_eq_map {α : Type} {f : α → List Byte} {g : α → Byte} (h : ∀ a, f a = [g a]) (as : List α) :
    as.flatMap f = as.map g := by
  rw [funext h, List.map_eq_flatMap]

theorem flags_eq (clamped part : Bool) : leBytes 1 ((if clamped then 1 else 0) + (if part then 2 else 0)) =
    [(if clamped then 1#8 else 0#8) ||| (if part then 2#8 else 0#8)] := by
  cases clamped <;> cases part <;> rfl

theorem responsePayload_eq (r : Response) : r.payload =
    [r.kind, Wire.code r.code, (if r.clamped then 1#8 else 0#8) ||| (if r.isPartial then 2#8 else 0#8)] ++ r.body.bytes := by
  rw [Response.payload, resultCode_eq, flags_eq]
  rfl

theorem channelOption_eq (c : Option Channel) : leOption 1 (c.map Fin.val) = [match c with
    | none => 0xFF#8
    | some c => Wire.channel c] := by
  cases c with
  | none => rfl
  | some c => exact channelCode_eq c

theorem noticePayload_eq (n : Notice) : n.payload =
    [Wire.flag n.lost] ++ leBytes 2 n.merged ++ [match n.channel with
      | none => 0xFF#8
      | some c => Wire.channel c] ++ n.body.bytes := by
  rw [Notice.payload, flagByte_eq, channelOption_eq]

theorem voidBytes_eq (b : Bool) : leBytes 2 (if b then 1 else 0) = [Wire.flag b, 0#8] := by cases b <;> decide

/-- A node as READ_NODES returns it. -/
theorem nodeBytes_eq (n : Node) : nodeBytes n =
    leBytes 2 (n.u % 65536).toNat ++ leBytes 2 (n.v % 65536).toNat ++ leBytes 2 n.baseWeight ++ [Wire.flag n.isVoid, 0#8] ++
      leBytes 2 n.weight ++ leBytes 2 n.lift ++ (match n.seamRef with
        | none => [0xFF#8, 0xFF#8]
        | some r => leBytes 1 r.seam ++ leBytes 1 r.point) := by
  have href : leOption 1 (n.seamRef.map SeamRef.seam) ++ leOption 1 (n.seamRef.map SeamRef.point) =
      (match n.seamRef with
        | none => [0xFF#8, 0xFF#8]
        | some r => leBytes 1 r.seam ++ leBytes 1 r.point) := by cases n.seamRef <;> rfl
  rw [nodeBytes, List.append_assoc _ (leOption 1 _) (leOption 1 _), href, voidBytes_eq]
  rfl

/-- A seam record as READ_SEAM returns it. -/
theorem seamBytes_eq (id : SeamId) (m : Seam) : seamBytes id m =
    leBytes 1 id.val ++ leBytes 1 m.members.length ++ m.members.map Wire.channel ++ leBytes 1 m.points.length ++
      m.points.flatMap fun q => q.flatMap fun e => leBytes 2 e.node ++ leBytes 2 e.coverage := by
  rw [seamBytes, flatMap_eq_map channelCode_eq]

theorem releaseOutcome_eq (o : ReleaseOutcome) : releaseOutcomeBytes o = (match o with
    | .swapped tag => 0#8 :: Wire.tag tag
    | .heldLate => [1#8]
    | .heldStalled => [2#8]) := by
  cases o with
  | swapped tag => exact congrArg (leBytes 1 0 ++ ·) (presentTag_eq tag)
  | heldLate => rfl
  | heldStalled => rfl

theorem abortCause_eq (c : AbortCause) : abortCauseBytes c = (match c with
    | .abortCommit sender => [0#8, Wire.link sender]
    | .restart => [1#8, 0xFF#8]) := by
  cases c with
  | abortCommit l => exact congrArg (leBytes 1 0 ++ ·) (linkCode_eq l)
  | restart => rfl

/-! #### The port -/

section Port

variable {l : Link} {s : State}

theorem exec_transmit (hr : s.resetHeld = false) (n : Nat) :
    exec (.messageTransmit l n) s = .next (withPort l (s.ports[l].transmit n) s) :=
  takeEvent_ready hr fun s => { s with ports := upd s.ports l (Port.transmit n) }

theorem transmit_sends {m : OutMessage} {ms : List OutMessage} {p : Port} {n : Nat} (hn : 0 < n) (hl : p.line = .isOpen)
    (ho : p.outbound = m :: ms) : p.transmit n = if m.bytes.length ≤ p.sent + n then
        { p with outbound := ms, sent := 0, txLine := (m.bytes.drop p.sent).take n }
      else { p with sent := p.sent + n, txLine := (m.bytes.drop p.sent).take n } := by
  rw [Port.transmit, ho]
  exact if_pos ⟨hl, hn⟩

theorem transmit_broken {p : Port} (n : Nat) (hl : p.line = .broken) : p.transmit n = p := by
  unfold Port.transmit
  split
  · rfl
  · rw [if_neg fun h => by rw [hl] at h; cases h.1]

end Port

/-- Settles O51: the messages on the line, and what the gap timer, link break and transmitter do to their port. -/
theorem linkEvents : Obligations.LinkEvents := by
  unfold Obligations.LinkEvents
  refine ⟨fun n v => ⟨rfl, leBytes_succ n v⟩, fun r => ?_, fun n => ?_, fun b => ?_, fun b => ?_, ?_, ?_, ?_, ?_, ?_⟩
  · rw [OutMessage.bytes, messageBytes_eq, responsePayload_eq]
    rfl
  · rw [OutMessage.bytes, messageBytes_eq, noticePayload_eq]
    cases n.body.kind <;> rfl
  · cases b with
    | engineBusy state link => exact congrArg₂ (· ++ ·) (commitCode_eq state) (linkOption_eq link)
    | abortedIn state => exact commitCode_eq state
    | outputs states => exact flatMap_eq_map outputCode_eq states
    | timing source state period =>
      exact congrArg₂ (fun a b => a ++ b ++ leBytes 4 period) (sourceCode_eq source) (timingCode_eq state)
    | mode m => exact modeCode_eq m
    | notices m => exact maskCode_eq m
    | nodes ns => exact congrArg ns.flatMap (funext nodeBytes_eq)
    | seam occupancy count id m =>
      refine (congrArg (leBytes 2 occupancy ++ leBytes 1 count ++ ·) (seamBytes_eq id m)).trans ?_
      simp only [List.append_assoc]
    | _ => rfl
  · cases b with
    | release frame forced outcome =>
      exact congrArg₂ (leBytes 4 frame.toNat ++ · ++ ·) (flagByte_eq forced) (releaseOutcome_eq outcome)
    | summary frame forced turned late taken =>
      rw [NoticeBody.bytes, flagByte_eq, flagByte_eq]
      rfl
    | armed link count floor =>
      rw [NoticeBody.bytes, linkCode_eq, floorPartBytes_eq]
      rfl
    | failed link count error item =>
      rw [NoticeBody.bytes, linkCode_eq, commitErrorCode_eq, itemBytes_eq]
      rfl
    | aborted link count state cause =>
      rw [NoticeBody.bytes, linkCode_eq, commitCode_eq, abortCause_eq]
      rfl
    | swapped link count frame floor =>
      rw [NoticeBody.bytes, linkCode_eq, floorPartBytes_eq]
      rfl
    | inputLost c tag held =>
      rw [NoticeBody.bytes, channelCode_eq, presentTag_eq, flagByte_eq]
      rfl
    | inputRestored c tag =>
      rw [NoticeBody.bytes, channelCode_eq]
      rfl
    | stalled c frame policy =>
      rw [NoticeBody.bytes, channelCode_eq, policyCode_eq]
      rfl
    | rejoined c tag =>
      rw [NoticeBody.bytes, channelCode_eq]
      rfl
    | skew c tag reference referenceTag frame =>
      rw [NoticeBody.bytes, channelCode_eq, channelCode_eq]
      rfl
    | timing state previous source period =>
      rw [NoticeBody.bytes, timingCode_eq, timingCode_eq, sourceCode_eq]
      rfl
  · exact fun l s hr => takeEvent_ready hr _
  · intro l s hr hopen
    exact (takeEvent_ready hr _).trans (congrArg Host.Outcome.next (if_pos hopen))
  · exact fun l s hr => takeEvent_ready hr _
  · intro l b n s hr hbroken
    have hclosed : ¬ s.ports[l].line = .isOpen := fun h => by rw [hbroken] at h; cases h
    refine ⟨(takeEvent_ready hr _).trans (congrArg Host.Outcome.next (if_neg hclosed)), ?_,
      (takeEvent_ready hr _).trans (congrArg Host.Outcome.next (if_neg hclosed))⟩
    rw [exec_transmit hr, transmit_broken n hbroken, withPort_self]
  · intro l n s m ms hr hn hopen ho
    rw [exec_transmit hr, transmit_sends hn hopen ho]

end Sys2Proof.Proofs

/-! ### REF edges and HOLDOVER_ENTRY (R164 to R168) -/
namespace Sys2Proof.Proofs

open Sys2Proof.Machine

theorem foldl_min_le (l : List Nat) : ∀ m : Nat, l.foldl min m ≤ m ∧ ∀ a ∈ l, l.foldl min m ≤ a := by
  induction l with
  | nil => exact fun m => ⟨Nat.le_refl m, fun a h => nomatch h⟩
  | cons b l ih =>
    intro m
    obtain ⟨hm, hall⟩ := ih (min m b)
    rw [List.foldl_cons]
    refine ⟨hm.trans (Nat.min_le_left m b), fun a ha => ?_⟩
    rcases List.mem_cons.mp ha with rfl | ha
    · exact hm.trans (Nat.min_le_right m a)
    · exact hall a ha

theorem foldl_min_mem (l : List Nat) : ∀ m : Nat, l.foldl min m = m ∨ l.foldl min m ∈ l := by
  induction l with
  | nil => exact fun m => .inl rfl
  | cons b l ih =>
    intro m
    rw [List.foldl_cons]
    rcases ih (min m b) with h | h
    · rw [h]
      rcases Nat.le_total m b with hmb | hbm
      · exact .inl (Nat.min_eq_left hmb)
      · exact .inr (by rw [Nat.min_eq_right hbm]; exact List.mem_cons_self)
    · exact .inr (List.mem_cons_of_mem b h)

/-- Four intervals agree where no two differ by more than 1/512 of their mean (R165). -/
theorem lockTest_iff (is : List Nat) : lockTest is = true ↔
    is.length = 4 ∧ ∀ a ∈ is, ∀ b ∈ is, 512 * (a - b) ≤ is.sum / 4 := by
  rw [lockTest, decide_eq_true_iff]
  refine and_congr_right fun hlength => ?_
  have hmin : is.foldl min (is.headD 0) ∈ is := by
    match is, hlength with
    | a :: l, _ =>
      rcases foldl_min_mem (a :: l) a with h | h
      · rw [List.headD_cons, h]
        exact List.mem_cons_self
      · exact h
  constructor
  · intro h a ha b hb
    have hmax := le_foldl_max (rs := is) 0 (.inr ha)
    have hle := (foldl_min_le is (is.headD 0)).2 b hb
    omega
  · intro h
    rcases foldl_max_mem is 0 with hmax | hmax
    · rw [hmax]
      omega
    · exact h _ hmax _ hmin

/-- The timing after a measured interval, state by state. -/
theorem edge_eq (t : Timing) (i : Nat) : t.edge i = (match t.state with
    | .free => t
    | .acquire =>
      if !intervalInRange i then { t with intervals := [] }
      else if lockTest (appendInterval t.intervals i) then
        { t with state := .locked, period := (appendInterval t.intervals i).sum / 4, intervals := [], substituted := false }
      else { t with intervals := appendInterval t.intervals i }
    | .locked =>
      if intervalInRange i && withinTolerance t.period i then { t with substituted := false }
      else { t with state := .acquire, intervals := if intervalInRange i then [i] else [], substituted := false }
    | .holdover => { t with state := .acquire, intervals := [], substituted := false }) := by
  obtain ⟨source, state, rate, period, intervals, lastEdge, width, height, outputs, lastFrameStart, substituted, clock⟩ := t
  unfold Timing.edge
  cases state with
  | free => rfl
  | acquire => cases intervalInRange i <;> rfl
  | locked => cases intervalInRange i <;> cases withinTolerance period i <;> rfl
  | holdover => rfl

/-- Settles O41: REF edges are ignored, measured, listed and lock, and HOLDOVER follows a lost reference. -/
theorem refEdgesMeasured : Obligations.RefEdgesMeasured := by
  unfold Obligations.RefEdgesMeasured
  refine ⟨?_, ?_, ?_, ?_⟩
  · exact fun time race s hr hx => (takeEvent_ready hr _).trans (congrArg Host.Outcome.next (if_pos hx))
  · intro time race s hr hx he
    have hno : ¬ FrameStartTaken s (.refEdge time race) race := fun ⟨_, _, _, _, _, e, he', _⟩ => by
      rw [he] at he'
      cases he'
    have ht : edgeTiming time s =
        { s.timing with lastEdge := some (max s.timing.clock time), clock := max s.timing.clock time } := by
      rw [edgeTiming, he]
    rw [exec_refEdge_measured hr hx hno, ht, notifyTiming, if_pos rfl]
  · intro time e race s hr hx he hno
    rw [exec_refEdge_measured hr hx hno, notifyTiming_eq]
    extract_lets i inRange near told t listed agree t'
    have hagree : lockTest listed = agree :=
      Bool.eq_iff_iff.mpr ((lockTest_iff listed).trans decide_eq_true_iff.symm)
    have ht : edgeTiming time s = t' := by
      rw [edgeTiming, he]
      refine (edge_eq t i).trans ?_
      rw [show appendInterval t.intervals i = listed from rfl, hagree]
      rfl
    rw [ht]
  · intro e s hr hl hs he
    refine (takeEvent_ready hr _).trans (congrArg Host.Outcome.next ((enterHoldover_due hl hs he).trans ?_))
    exact if_neg (by simp [holdoverTiming])

end Sys2Proof.Proofs

/-! ### PIXEL_DELIVERY (R58 to R72) -/
namespace Sys2Proof.Proofs

open Sys2Proof.Machine

/-- The interpolated value with the coefficients written out (R61). -/
theorem interpolate_eq (x y : Nat) (q : Corners Int) : interpolate x y q =
    ((64 - ((x % 64 : Nat) : Int)) * (64 - ((y % 64 : Nat) : Int)) * q.q00 +
      ((x % 64 : Nat) : Int) * (64 - ((y % 64 : Nat) : Int)) * q.q10 +
      (64 - ((x % 64 : Nat) : Int)) * ((y % 64 : Nat) : Int) * q.q01 +
      ((x % 64 : Nat) : Int) * ((y % 64 : Nat) : Int) * q.q11 + 2048) / 4096 := by
  have hsub (n : Nat) : ((64 - n % 64 : Nat) : Int) = 64 - ((n % 64 : Nat) : Int) := by omega
  simp only [interpolate, weighted, coefficients, Nat.cast_mul, hsub]

/-- The content as conditions on the channel and the source position (R64 to R68). -/
theorem content_eq (b : Bank) (f : FrameBank) (x : FrameContext) (r : ChannelRecord) (p : Sample) (k : Colour) :
    content b f x r p k = if x.dark = true ∨ x.contentOff = true ∨ p.u < 0 ∨ p.v < 0 ∨ 16 * ((r.width : Int) - 1) < p.u ∨
        16 * ((r.height : Int) - 1) < p.v then 0 else sampledContent b f r.width r.height p k :=
  if_congr (by simp only [outOfRange, Bool.or_eq_true, decide_eq_true_eq, or_assoc]) rfl rfl

/-- The codes delivered, with the gate and the VOID corners as one condition (R58, R60). -/
theorem deliveredCodes_eq (s : State) (c : Channel) (x : FrameContext) (col row : Nat) :
    let q := cornerNodes (s.tables.bank x.bankIsB) c col row
    deliveredCodes s c x col row =
      if s.timing.outputs[c] = .disabled ∨ s.timing.outputs[c] = .starting ∨ q.q00.isVoid = true ∨ q.q10.isVoid = true ∨
          q.q01.isVoid = true ∨ q.q11.isVoid = true then OutPixel.zero
      else
        let code := pathCode (s.tables.bank x.bankIsB) (s.receivers[c].banks[x.shown]) x c (sampleAt q col row)
        { r := code .r, g := code .g, b := code .b } := by
  intro q
  have hvoid : anyVoid q = true ↔ q.q00.isVoid = true ∨ q.q10.isVoid = true ∨ q.q01.isVoid = true ∨ q.q11.isVoid = true := by
    simp only [anyVoid, Bool.or_eq_true, or_assoc]
  have hdark (h : s.timing.outputs[c].lit = false) :
      s.timing.outputs[c] = .disabled ∨ s.timing.outputs[c] = .starting := by
    cases hs : s.timing.outputs[c] <;> simp_all [OutputState.lit]
  have hlit (h : s.timing.outputs[c].lit = true) :
      ¬ (s.timing.outputs[c] = .disabled) ∧ ¬ (s.timing.outputs[c] = .starting) := by
    cases hs : s.timing.outputs[c] <;> simp_all [OutputState.lit]
  cases h : s.timing.outputs[c].lit with
  | false =>
    rw [deliveredCodes, if_neg (by rw [h]; exact Bool.false_ne_true), if_pos ((hdark h).elim .inl fun hs => .inr (.inl hs))]
  | true =>
    rw [deliveredCodes, if_pos h]
    by_cases hq : anyVoid q = true
    · rw [if_pos (.inr (.inr (hvoid.mp hq)))]
      exact if_pos hq
    · rw [if_neg fun hbad => hbad.elim (hlit h).1 fun hbad => hbad.elim (hlit h).2 fun hv => hq (hvoid.mpr hv)]
      exact if_neg hq

theorem advance_place (e : PixelEngine) (x : FrameContext) : ((e.advance x).x, (e.advance x).y) =
    if e.x + 1 < x.width then (e.x + 1, e.y) else (0, e.y + 1) := by
  unfold PixelEngine.advance
  split <;> rfl

theorem advance_context (e : PixelEngine) (x : FrameContext) : (e.advance x).context = e.context := by
  unfold PixelEngine.advance
  split <;> rfl

theorem exec_pixelDelivery {s : State} (hr : s.resetHeld = false) (c : Channel) :
    exec (.pixelDelivery c) s = .next (deliverPixel c s) := takeEvent_ready hr _

/-- Settles O42: the pixel an engine delivers, and how it moves on. -/
theorem pixelDelivered : Obligations.PixelDelivered := by
  unfold Obligations.PixelDelivered
  refine ⟨?_, ?_, ?_⟩
  · intro c s x hr hx hy
    have hdelivers : deliverPixel c s = { s with engines := put s.engines c { s.engines[c].advance x with
        out := deliveredCodes s c x s.engines[c].x s.engines[c].y } } := by
      rw [deliverPixel, hx]
      exact if_pos hy
    refine ⟨_, (exec_pixelDelivery hr c).trans (congrArg Host.Outcome.next hdelivers), (advance_context _ x).trans hx,
      advance_place _ x, ?_⟩
    extract_lets b col row n00 n10 n01 n11 cx cy at_ u v weight lift r px py fu fv right below decoded light code
    have hat (f : Node → Int) : interpolate col row ((cornerNodes b c col row).mapAll f) = at_ f := interpolate_eq _ _ _
    have hsample : sampleAt (cornerNodes b c col row) col row = { u := u, v := v, weight := weight, lift := lift } := by
      rw [sampleAt, hat, hat, hat, hat]
    have hlight (k : Colour) : content b (s.receivers[c].banks[x.shown]) x r
        { u := u, v := v, weight := weight, lift := lift } k = light k := content_eq b _ x r _ k
    have hcode (k : Colour) : pathCode b (s.receivers[c].banks[x.shown]) x c
        (sampleAt (cornerNodes b c col row) col row) k = code k := by
      rw [hsample, pathCode]
      dsimp only
      rw [show b.records[c] = r from rfl, hlight]
      rfl
    rw [← hcode, ← hcode, ← hcode]
    exact deliveredCodes_eq s c x col row
  · intro c s hr hx
    refine (exec_pixelDelivery hr c).trans (congrArg Host.Outcome.next ?_)
    simp only [deliverPixel]
    split
    · rfl
    · next hsome => exact nomatch hx.symm.trans hsome
  · intro c s x hr hx hy
    rw [exec_pixelDelivery hr, deliverPixel, hx]
    exact congrArg Host.Outcome.next (if_neg (Nat.not_lt.mpr hy))

end Sys2Proof.Proofs

/-! ### A receiver's whole part in a frame start (R124, R126, R128)

What each of the three actions does to each field of the turning, so that the six orders of them are six computations. -/
namespace Sys2Proof.Proofs

open Sys2Proof.Machine

/-- The tag of the bank in a state, if there is one. -/
def tagIn (r : Receiver) (st : BankState) : Option Word32 := (r.bankIn st).map fun i => r.banks[i].tag

theorem isSome_tagIn (r : Receiver) (st : BankState) : (tagIn r st).isSome = (r.bankIn st).isSome := Option.isSome_map

theorem isSome_tagIn_iff (r : Receiver) (st : BankState) :
    (tagIn r st).isSome = true ↔ ∃ i : Fin 3, r.banks[i].state = st := by
  rw [isSome_tagIn, Receiver.bankIn_isSome]

theorem tagIn_eq_some_iff {r : Receiver} {st : BankState} (h : SoleIn r st) (v : Word32) :
    tagIn r st = some v ↔ ∃ j : Fin 3, r.banks[j].state = st ∧ r.banks[j].tag = v := by
  rw [tagIn, Option.map_eq_some_iff]
  constructor
  · rintro ⟨i, hi, rfl⟩
    exact ⟨i, (Receiver.bankIn_some hi).1, rfl⟩
  · rintro ⟨j, hj, rfl⟩
    exact ⟨j, bankIn_eq_of_soleIn h hj, rfl⟩

/-- The bank found in a state is as before where the same banks are in it, with the tags they had. -/
theorem tagIn_congr {r r' : Receiver} {st : BankState} (h : SoleIn r st)
    (hstate : ∀ j : Fin 3, r'.banks[j].state = st ↔ r.banks[j].state = st)
    (htag : ∀ j : Fin 3, r.banks[j].state = st → r'.banks[j].tag = r.banks[j].tag) : tagIn r' st = tagIn r st := by
  have h' : SoleIn r' st := fun i j hi hj => h i j ((hstate i).mp hi) ((hstate j).mp hj)
  refine Option.ext fun v => ?_
  rw [tagIn_eq_some_iff h', tagIn_eq_some_iff h]
  refine exists_congr fun j => ?_
  rw [hstate]
  exact and_congr_right fun hj => by rw [htag j hj]

theorem tagIn_eq_none {r : Receiver} {st : BankState} (h : ∀ j : Fin 3, r.banks[j].state ≠ st) : tagIn r st = none := by
  rw [← Option.not_isSome_iff_eq_none, isSome_tagIn_iff]
  exact not_exists.mpr h

/-- The loss count step declares a loss (R124), as the model decides it. -/
def declares (t : Told) (r : Receiver) : Bool := decide (r.state ≠ .lost) && !(t.header || decide (r.lossCount + 1 < t.lossLimit))

theorem declares_iff (t : Told) (r : Receiver) : declares t r = true ↔ Declares t r := by
  simp [declares, Declares]

section Acts

variable {t : Told} {g : Turning}

theorem lossStep_eq (t : Told) (g : Turning) : g.lossStep t =
    if declares t g.receiver = true then { g with
      receiver := { g.receiver.freeBankIn .filling with state := .lost, lossCount := g.receiver.lossCount + 1 }
      lost := some (tagIn g.receiver .filling, (g.receiver.bankIn .ready).isSome) }
    else { g with receiver := { g.receiver with
      lossCount := if g.receiver.state = .lost then g.receiver.lossCount else g.receiver.lossCount + 1 } } := by
  split
  · exact lossStep_declares ((declares_iff _ _).mp ‹_›)
  · split
    · exact lossStep_lost ‹_›
    · exact lossStep_counts ‹_› (mt (declares_iff _ _).mpr ‹_›)

/-! #### The loss count step -/

@[simp] theorem lossStep_tag : (g.lossStep t).tag = g.tag := by
  rw [lossStep_eq]; split <;> rfl

@[simp] theorem lossStep_truncated : (g.lossStep t).truncated = g.truncated := by
  rw [lossStep_eq]; split <;> rfl

@[simp] theorem lossStep_replaced : (g.lossStep t).replaced = g.replaced := by
  rw [lossStep_eq]; split <;> rfl

@[simp] theorem lossStep_reports : (g.lossStep t).lost =
    if declares t g.receiver = true then some (tagIn g.receiver .filling, (tagIn g.receiver .ready).isSome) else g.lost := by
  rw [lossStep_eq, isSome_tagIn]; split <;> rfl

@[simp] theorem lossStep_state : (g.lossStep t).receiver.state =
    if declares t g.receiver = true then .lost else g.receiver.state := by
  rw [lossStep_eq]; split <;> rfl

@[simp] theorem lossStep_lossCount : (g.lossStep t).receiver.lossCount =
    if g.receiver.state = .lost then g.receiver.lossCount else g.receiver.lossCount + 1 := by
  rw [lossStep_eq]
  split
  · rw [if_neg ((declares_iff _ _).mp ‹_›).1]
  · rfl

@[simp] theorem lossStep_lineCount : (g.lossStep t).receiver.lineCount = g.receiver.lineCount := by
  rw [lossStep_eq]
  split
  · rw [Receiver.freeBankIn_eq]
  · rfl

theorem lossStep_bank (h : BanksOk g.receiver) (j : Fin 3) : (g.lossStep t).receiver.banks[j] =
    if declares t g.receiver = true then freedFrom .filling g.receiver.banks[j] else g.receiver.banks[j] := by
  rw [lossStep_eq]
  split
  · exact freeBankIn_bank (h.sole _ (by decide)) j
  · rfl

@[simp] theorem lossStep_banksOk (h : BanksOk g.receiver) : BanksOk (g.lossStep t).receiver := by
  by_cases hd : declares t g.receiver = true
  · refine banksOk_freed (st := .filling) h (fun j => ?_) (by decide) (by simp [hd])
    rw [lossStep_bank h, if_pos hd]
  · rw [lossStep_eq, if_neg hd]
    exact ⟨h.shown, h.sole, h.filling, h.codes⟩

@[simp] theorem lossStep_ready (h : BanksOk g.receiver) : tagIn (g.lossStep t).receiver .ready = tagIn g.receiver .ready := by
  refine tagIn_congr (h.sole _ (by decide)) (fun j => ?_) fun j _ => ?_
  · rw [lossStep_bank h]
    split
    · simp [freedFrom_state_eq]
    · rfl
  · rw [lossStep_bank h]
    split <;> rfl

@[simp] theorem lossStep_filling (h : BanksOk g.receiver) : tagIn (g.lossStep t).receiver .filling =
    if declares t g.receiver = true then none else tagIn g.receiver .filling := by
  split
  · refine tagIn_eq_none fun j => ?_
    rw [lossStep_bank h, if_pos ‹_›]
    simp [freedFrom_state_eq]
  · rw [lossStep_eq, if_neg ‹_›]
    rfl

/-! #### The promotion -/

theorem promotes_iff :
    (t.promote && (tagIn g.receiver .ready).isSome) = true ↔ Promotes t g.receiver := by
  rw [Bool.and_eq_true, isSome_tagIn_iff]
  rfl

theorem promoteStep_eq (t : Told) (g : Turning) : g.promoteStep t = { g with
    receiver := { g.receiver with banks := (g.promoteStep t).receiver.banks }
    tag := (g.promoteStep t).tag } := by
  by_cases h : Promotes t g.receiver
  · obtain ⟨i, hi⟩ := Option.isSome_iff_exists.mp ((Receiver.bankIn_isSome _ _).mpr h.2)
    rw [promoteStep_of_ready h.1 hi, updBank_eq, Receiver.freeBankIn_eq]
  · rw [promoteStep_of_not h]

@[simp] theorem promoteStep_truncated : (g.promoteStep t).truncated = g.truncated := by rw [promoteStep_eq]

@[simp] theorem promoteStep_replaced : (g.promoteStep t).replaced = g.replaced := by rw [promoteStep_eq]

@[simp] theorem promoteStep_reports : (g.promoteStep t).lost = g.lost := by rw [promoteStep_eq]

@[simp] theorem promoteStep_state : (g.promoteStep t).receiver.state = g.receiver.state := by rw [promoteStep_eq]

@[simp] theorem promoteStep_count : (g.promoteStep t).receiver.lossCount = g.receiver.lossCount :=
  promoteStep_lossCount t g

@[simp] theorem promoteStep_lineCount : (g.promoteStep t).receiver.lineCount = g.receiver.lineCount := by
  rw [promoteStep_eq]

@[simp] theorem promoteStep_declares : declares t (g.promoteStep t).receiver = declares t g.receiver := by
  simp only [declares, promoteStep_state, promoteStep_count]

theorem promoteStep_tag_of_promotes (h : Promotes t g.receiver) :
    (g.promoteStep t).tag = tagIn g.receiver .ready := by
  obtain ⟨i, hi⟩ := Option.isSome_iff_exists.mp ((Receiver.bankIn_isSome _ _).mpr h.2)
  rw [promoteStep_of_ready h.1 hi, tagIn, hi]
  rfl

/-- A promotion hands the tag of the READY bank back, if there is one. -/
@[simp] theorem promoteStep_tag : (g.promoteStep t).tag =
    if t.promote = true then (tagIn g.receiver .ready).or g.tag else g.tag := by
  by_cases hp : Promotes t g.receiver
  · obtain ⟨v, hv⟩ := Option.isSome_iff_exists.mp ((isSome_tagIn_iff _ _).mpr hp.2)
    rw [promoteStep_tag_of_promotes hp, if_pos hp.1, hv, Option.some_or]
  · rw [promoteStep_of_not hp]
    split
    · rw [tagIn_eq_none fun j hj => hp ⟨‹_›, j, hj⟩, Option.none_or]
    · rfl

theorem promoteStep_bank (h : BanksOk g.receiver) (j : Fin 3) : (g.promoteStep t).receiver.banks[j] =
    if (t.promote && (tagIn g.receiver .ready).isSome) = true then promotedBank g.receiver.banks[j]
    else g.receiver.banks[j] := by
  split
  · have hp := promotes_iff.mp ‹_›
    obtain ⟨i, hi⟩ := Option.isSome_iff_exists.mp ((Receiver.bankIn_isSome _ _).mpr hp.2)
    rw [promoteStep_of_ready hp.1 hi]
    exact promoted_bank h (Receiver.bankIn_some hi).1 j
  · rw [promoteStep_of_not (mt promotes_iff.mpr ‹_›)]

@[simp] theorem promoteStep_banksOk (h : BanksOk g.receiver) : BanksOk (g.promoteStep t).receiver := by
  by_cases hp : Promotes t g.receiver
  · refine banksOk_promoted h hp.2 (fun j => ?_) promoteStep_state
    rw [promoteStep_bank h, if_pos (promotes_iff.mpr hp)]
  · rw [promoteStep_of_not hp]
    exact h

@[simp] theorem promoteStep_filling (h : BanksOk g.receiver) :
    tagIn (g.promoteStep t).receiver .filling = tagIn g.receiver .filling := by
  refine tagIn_congr (h.sole _ (by decide)) (fun j => ?_) fun j _ => ?_
  · rw [promoteStep_bank h]
    split
    · simp [promotedBank_state_eq]
    · rfl
  · rw [promoteStep_bank h]
    split <;> rfl

@[simp] theorem promoteStep_ready (h : BanksOk g.receiver) : tagIn (g.promoteStep t).receiver .ready =
    if t.promote = true then none else tagIn g.receiver .ready := by
  split
  · refine tagIn_eq_none fun j => ?_
    rw [promoteStep_bank h]
    split
    · simp [promotedBank_state_eq]
    · exact fun hj => ‹¬ _› (by rw [Bool.and_eq_true, isSome_tagIn_iff]; exact ⟨‹_›, j, hj⟩)
  · rw [promoteStep_of_not fun hp => ‹¬ _› hp.1]

/-! #### The raster change -/

theorem rasterStep_eq (t : Told) (g : Turning) : g.rasterStep t = { g with
    receiver := { g.receiver with
      state := (g.rasterStep t).receiver.state, banks := (g.rasterStep t).receiver.banks }
    truncated := (g.rasterStep t).truncated
    replaced := (g.rasterStep t).replaced } := by
  cases h : t.raster with
  | true =>
    rw [rasterStep_of_raster h, clearShown_eq, Receiver.freeBankIn_eq, Receiver.freeBankIn_eq]
  | false => rw [rasterStep_of_not h]

@[simp] theorem rasterStep_tag : (g.rasterStep t).tag = g.tag := by rw [rasterStep_eq]

@[simp] theorem rasterStep_reports : (g.rasterStep t).lost = g.lost := by rw [rasterStep_eq]

@[simp] theorem rasterStep_count : (g.rasterStep t).receiver.lossCount = g.receiver.lossCount := rasterStep_lossCount t g

@[simp] theorem rasterStep_lineCount : (g.rasterStep t).receiver.lineCount = g.receiver.lineCount := by rw [rasterStep_eq]

@[simp] theorem rasterStep_state : (g.rasterStep t).receiver.state =
    if t.raster = true ∧ g.receiver.state = .receiving then .idle else g.receiver.state := by
  cases h : t.raster with
  | true =>
    rw [rasterStep_of_raster h]
    simp
  | false =>
    rw [rasterStep_of_not h]
    simp

@[simp] theorem rasterStep_declares : declares t (g.rasterStep t).receiver = declares t g.receiver := by
  have hlost : (g.rasterStep t).receiver.state = .lost ↔ g.receiver.state = .lost := by
    rw [rasterStep_state]
    split
    · rename_i hr
      rw [hr.2]
      decide
    · rfl
  simp only [declares, ne_eq, hlost, rasterStep_count]

@[simp] theorem rasterStep_truncated : (g.rasterStep t).truncated =
    if t.raster = true then (tagIn g.receiver .filling).isSome else g.truncated := by
  rw [isSome_tagIn]
  split
  · rw [rasterStep_of_raster ‹_›]
  · rw [rasterStep_of_not (Bool.eq_false_iff.mpr ‹_›)]

@[simp] theorem rasterStep_replaced : (g.rasterStep t).replaced =
    if t.raster = true then (tagIn g.receiver .ready).isSome else g.replaced := by
  rw [isSome_tagIn]
  split
  · rw [rasterStep_of_raster ‹_›]
  · rw [rasterStep_of_not (Bool.eq_false_iff.mpr ‹_›)]

theorem rasterStep_bank (h : BanksOk g.receiver) (j : Fin 3) : (g.rasterStep t).receiver.banks[j] =
    if t.raster = true then rasterBank g.receiver.banks[j] else g.receiver.banks[j] := by
  split
  · rw [rasterStep_of_raster ‹_›]
    exact raster_bank h j
  · rw [rasterStep_of_not (Bool.eq_false_iff.mpr ‹_›)]

@[simp] theorem rasterStep_banksOk (h : BanksOk g.receiver) : BanksOk (g.rasterStep t).receiver := by
  cases ht : t.raster with
  | true =>
    refine banksOk_raster h (fun j => ?_) ?_
    · rw [rasterStep_bank h, if_pos ht]
    · rw [rasterStep_state]
      split
      · decide
      · rename_i hn
        exact fun hr => hn ⟨ht, hr⟩
  | false =>
    rw [rasterStep_of_not ht]
    exact h

theorem rasterStep_tagIn (h : BanksOk g.receiver) {st : BankState} (hfree : st ≠ .free) (hshown : st ≠ .shown) :
    tagIn (g.rasterStep t).receiver st = if t.raster = true then none else tagIn g.receiver st := by
  split
  · refine tagIn_eq_none fun j => ?_
    rw [rasterStep_bank h, if_pos ‹_›, Ne, rasterBank_state_eq _ hfree]
    exact fun hs => hshown hs.1
  · rw [rasterStep_of_not (Bool.eq_false_iff.mpr ‹_›)]

@[simp] theorem rasterStep_filling (h : BanksOk g.receiver) : tagIn (g.rasterStep t).receiver .filling =
    if t.raster = true then none else tagIn g.receiver .filling := rasterStep_tagIn h (by decide) (by decide)

@[simp] theorem rasterStep_ready (h : BanksOk g.receiver) : tagIn (g.rasterStep t).receiver .ready =
    if t.raster = true then none else tagIn g.receiver .ready := rasterStep_tagIn h (by decide) (by decide)

theorem act_banksOk (a : ReceiverAct) (h : BanksOk g.receiver) : BanksOk (g.act t a).receiver := by
  cases a
  case loss => exact lossStep_banksOk h
  case promote => exact promoteStep_banksOk h
  case raster => exact rasterStep_banksOk h

theorem acts_banksOk (as : List ReceiverAct) : ∀ g : Turning, BanksOk g.receiver →
    BanksOk (as.foldl (Turning.act t) g).receiver := by
  induction as with
  | nil => exact fun _ h => h
  | cons a as ih => exact fun g h => ih (g.act t a) (act_banksOk a h)

end Acts

/-! #### The three in their order -/

section Turns

variable {r : Receiver} {t : Told} (o : ReceiverOrder) (h : BanksOk r)

theorem turn_lossCount : (r.turn o t).receiver.lossCount =
    if r.state = .lost then r.lossCount else r.lossCount + 1 := by
  cases o <;> simp [Receiver.turn, orderActs, Turning.act, Turning.start] <;> grind

theorem turn_state : (r.turn o t).receiver.state =
    if declares t r = true then .lost else if t.raster = true ∧ r.state = .receiving then .idle else r.state := by
  cases o <;> simp [Receiver.turn, orderActs, Turning.act, Turning.start] <;> grind

theorem turn_lineCount : (r.turn o t).receiver.lineCount = r.lineCount := by
  cases o <;> simp [Receiver.turn, orderActs, Turning.act, Turning.start]

include h

theorem turn_banksOk : BanksOk (r.turn o t).receiver := acts_banksOk (orderActs o) (Turning.start r) h

theorem turn_tag : (r.turn o t).tag =
    if t.promote = true ∧ ¬ (t.raster = true ∧ Before o .raster .promote) then tagIn r .ready else none := by
  cases o <;> simp [Receiver.turn, orderActs, Turning.act, Turning.start, h] <;> grind

theorem turn_truncated : (r.turn o t).truncated =
    (t.raster && (tagIn r .filling).isSome && !(declares t r && decide (Before o .loss .raster))) := by
  cases o <;> simp [Receiver.turn, orderActs, Turning.act, Turning.start, h] <;> grind

theorem turn_replaced : (r.turn o t).replaced =
    (t.raster && (tagIn r .ready).isSome && !(t.promote && decide (Before o .promote .raster))) := by
  cases o <;> simp [Receiver.turn, orderActs, Turning.act, Turning.start, h] <;> grind

theorem turn_lost : (r.turn o t).lost =
    if declares t r = true then
      some (if t.raster = true ∧ Before o .raster .loss then none else tagIn r .filling,
        (tagIn r .ready).isSome && !(t.raster && decide (Before o .raster .loss)) &&
          !(t.promote && decide (Before o .promote .loss)))
    else none := by
  cases o <;> simp [Receiver.turn, orderActs, Turning.act, Turning.start, h] <;> grind

/-- A bank after a frame start without a raster change: each moves by its own state, by whether a loss is declared and
whether a promotion is taken. -/
def turnedBank (lost promoted : Bool) (b : FrameBank) : FrameBank :=
  { b with state := match b.state with
      | .free => .free
      | .filling => if lost then .free else .filling
      | .ready => if promoted then .shown else .ready
      | .shown => if promoted then .free else .shown }

/-- A bank after a frame start with a raster change: the bank SHOWN at that moment is cleared, any other is FREE. -/
def rasteredBank (st : BankState) (b : FrameBank) : FrameBank :=
  if b.state = st then FrameBank.cleared else { b with state := .free }

theorem turn_bank_of_no_raster (ht : t.raster = false) (j : Fin 3) : (r.turn o t).receiver.banks[j] =
    turnedBank (declares t r) (t.promote && (tagIn r .ready).isSome) r.banks[j] := by
  have hready : r.banks[j].state = .ready → (tagIn r .ready).isSome = true := fun hj =>
    (isSome_tagIn_iff _ _).mpr ⟨j, hj⟩
  have hraster (g : Turning) : g.rasterStep t = g := rasterStep_of_not ht
  cases o <;> simp only [Receiver.turn, orderActs, List.foldl_cons, List.foldl_nil, Turning.act, Turning.start, hraster,
    lossStep_bank, promoteStep_bank, lossStep_banksOk, promoteStep_banksOk, lossStep_ready, promoteStep_declares, h]
  all_goals
    generalize r.banks[j] = b at hready ⊢
    obtain ⟨state, tag, malformed, rows⟩ := b
    cases state <;> grind [freedFrom, promotedBank, turnedBank]

theorem turn_bank_of_raster (ht : t.raster = true) (j : Fin 3) : (r.turn o t).receiver.banks[j] =
    rasteredBank (if (t.promote && (tagIn r .ready).isSome) = true ∧ Before o .promote .raster then .ready else .shown)
      r.banks[j] := by
  have hready : r.banks[j].state = .ready → (tagIn r .ready).isSome = true := fun hj =>
    (isSome_tagIn_iff _ _).mpr ⟨j, hj⟩
  have hstart : (Turning.start r).receiver = r := rfl
  have hloss : BanksOk ((Turning.start r).lossStep t).receiver := lossStep_banksOk h
  have hpromote : BanksOk ((Turning.start r).promoteStep t).receiver := promoteStep_banksOk h
  have hraster : BanksOk ((Turning.start r).rasterStep t).receiver := rasterStep_banksOk h
  cases o <;> simp only [Receiver.turn, orderActs, List.foldl_cons, List.foldl_nil, Turning.act, hstart, hloss, hpromote,
    hraster, lossStep_bank, promoteStep_bank, rasterStep_bank, lossStep_banksOk, promoteStep_banksOk, rasterStep_banksOk,
    lossStep_ready, rasterStep_ready, promoteStep_declares, rasterStep_declares, h, ht, if_true]
  all_goals
    generalize r.banks[j] = b at hready ⊢
    obtain ⟨state, tag, malformed, rows⟩ := b
    cases state <;> simp [orderActs] <;> grind [freedFrom, promotedBank, rasterBank, rasteredBank, FrameBank.cleared]

end Turns

end Sys2Proof.Proofs

/-! ### What a frame start is made of, block by block (R54, R124 to R151)

The turning of each receiver and what it is told, and the parts of the state after the frame start that a command takes. -/
namespace Sys2Proof.Proofs

open Sys2Proof.Machine

section Started

variable (race : FrameRace) (s : State) (c : Channel)

/-- The part of a channel's receiver in a frame start. -/
def turnOf : Turning := s.receivers[c].turn race.receivers[c] (toldTo race (decision s) s c)

theorem getElem_receiverTurns : (receiverTurns race (decision s) s)[c] = turnOf race s c := by
  simp [receiverTurns, turnOf]

theorem started_receiver (i : Instr) :
    (frameStart race (startState i s)).receivers[c] = (turnOf race s c).receiver :=
  (frameStart_receivers race (startState i s) c).trans
    (congrArg Turning.receiver (getElem_receiverTurns race (startState i s) c))

theorem started_barrier (i : Instr) : (frameStart race (startState i s)).barrier =
    barrierAfter (decision s) (receiverTurns race (decision s) s) s := frameStart_barrier race (startState i s)

/-- What a frame start counts, but for commits done and notices lost. -/
theorem started_counter (i : Instr) (n : CounterIx) (hdone : n ≠ Counter.commitsDone)
    (hlost : ∀ l : Link, n ≠ Counter.ofLink l 3) : (frameStart race (startState i s)).counters[n] = s.counters[n] +
      BitVec.ofNat 32 ((frameCounts (decision s) (receiverTurns race (decision s) s) s).count n) := by
  rw [frameStart_counter race _ n hlost, swapAt_counters _ _ _ hdone]
  rfl

theorem started_ofChannel (i : Instr) {k : Fin 8} (hk : k ≠ 7) :
    (frameStart race (startState i s)).counters[Counter.ofChannel c k] = s.counters[Counter.ofChannel c k] +
      BitVec.ofNat 32 ((channelCounts (decision s) (receiverTurns race (decision s) s) s c).count
        (Counter.ofChannel c k)) := by
  rw [started_counter race s i _ (ofChannel_ne_global c k (by decide)) fun l => ofChannel_ne_ofLink c k l 3,
    count_ofChannel hk]

/-! #### What a receiver is told -/

theorem toldTo_raster_iff : (toldTo race (decision s) s c).raster = true ↔ RasterSwap s c := by
  rw [toldTo, Bool.and_eq_true, swapTaken_isSome_iff, rasterChanges, decide_eq_true_iff]

theorem toldTo_raster_eq_false (h : ¬ RasterSwap s c) : (toldTo race (decision s) s c).raster = false :=
  Bool.eq_false_iff.mpr (mt (toldTo_raster_iff race s c).mp h)

theorem asksPromotion_iff : asksPromotion (decision s) s c = true ↔
    (s.barrier.channels[c]).enrolled = false ∨ (InP s c ∧ ReleaseDue s ∧ Ready s c) := by
  unfold asksPromotion
  split
  · rw [Bool.and_eq_true, Bool.and_eq_true, isRelease_iff, participates_iff, isReady_iff]
    simp only [‹(s.barrier.channels[c]).enrolled = true›, Bool.true_eq_false, false_or]
    tauto
  · exact iff_of_true rfl (.inl (Bool.eq_false_iff.mpr ‹_›))

theorem toldTo_promote_iff :
    ((toldTo race (decision s) s c).promote && (tagIn s.receivers[c] .ready).isSome) = true ↔ PromotionDue s c := by
  rw [Bool.and_eq_true, isSome_tagIn_iff]
  change asksPromotion (decision s) s c = true ∧ _ ↔ _
  rw [asksPromotion_iff]
  tauto

theorem declares_toldTo : declares (toldTo race (decision s) s c) s.receivers[c] = true ↔ LostNow race s c := by
  rw [declares_iff, Declares]
  change _ ∧ ¬ (headerTogether race s c = true ∨ _ < s.barrier.lossLimit) ↔ _
  rw [headerTogether_iff, not_or]
  constructor
  · rintro ⟨hs, hh, hl⟩
    exact ⟨hs, Nat.not_lt.mp hl, hh⟩
  · rintro ⟨hs, hl, hh⟩
    exact ⟨hs, hh, Nat.not_lt.mpr hl⟩

/-! #### What the turnings count -/

/-- What a channel counts at a frame start, counter by counter. -/
theorem count_channelCounts (d : Decision) (turns : Vector Turning 12) (k : Fin 8) :
    (channelCounts d turns s c).count (Counter.ofChannel c k) =
      (if k = 4 ∧ isLate d s c = true then 1 else 0) + (if k = 5 ∧ stalls d s c = true then 1 else 0) +
        ((if k = 1 ∧ turns[c].truncated = true then 1 else 0) + (if k = 3 ∧ turns[c].replaced = true then 1 else 0) +
          if k = 6 ∧ turns[c].lost.isSome = true then 1 else 0) := by
  have hone (j : Fin 8) (P : Prop) [Decidable P] : (if P then [Counter.ofChannel c j] else []).count
      (Counter.ofChannel c k) = if k = j ∧ P then 1 else 0 := by
    by_cases hP : P
    · simp only [hP, if_true, List.count_singleton, beq_iff_eq, ofChannel_inj, true_and, and_true, eq_comm (a := k)]
    · simp [hP]
  simp only [channelCounts, Turning.counts, List.count_append, hone]

end Started

end Sys2Proof.Proofs

/-! ### The notices of a frame start (R104, R130, R144, R149 to R151) -/
namespace Sys2Proof.Proofs

open Sys2Proof.Machine

section Emissions

/-! #### What is emitted -/

/-- What a channel that stalls emits (R144). -/
def stalledEmission (d : Decision) (s : State) (c : Channel) : Emission :=
  { key := .stalled c, hands := channelHands c (.stalled c (turnNumber d s) (s.barrier.channels[c]).policy) }

/-- What a swap emits (R104). -/
def swapEmission (d : Decision) (s : State) (k : CurrentCommit) : Emission :=
  { key := .swapped, hands := commitHands k.link (.swapped k.link k.count (turnNumber d s) k.floorPart) }

/-- What a skewed channel emits (R149). -/
def skewEmission (d : Decision) (s : State) (ref p : Channel × Word32) : Emission :=
  { key := .skew p.1, hands := channelHands p.1 (.skew p.1 p.2 ref.1 ref.2 (turnNumber d s)) }

/-- What a lost input emits (R130). -/
def lossEmission (c : Channel) (f : Option Word32 × Bool) : Emission :=
  { key := .inputLost c, hands := channelHands c (.inputLost c f.1 f.2) }

variable (d : Decision) (turns : Vector Turning 12) (s : State)

/-- The skews of a frame start, against the first of the tags handed back. -/
def skewEmissions : List (Channel × Word32) → List Emission
  | [] => []
  | r :: rs => (skewed (r :: rs)).map (skewEmission d s r)

theorem frameEmissions_eq : frameEmissions d turns s =
    (channels.filter (stalls d s)).map (stalledEmission d s) ++
      (swapTaken d s).toList.map (swapEmission d s) ++
      skewEmissions d s (promotedTags d turns s) ++
      (if d.isRelease then [{ key := .release, hands := releaseHands d turns s }] else []) ++
      channels.filterMap fun c => turns[c].lost.map (lossEmission c) := by
  unfold frameEmissions
  cases swapTaken d s <;> cases promotedTags d turns s <;> rfl

/-- The emissions of a frame start, each with what it is made on. -/
theorem mem_frameEmissions (e : Emission) : e ∈ frameEmissions d turns s ↔
    (∃ c, stalls d s c = true ∧ e = stalledEmission d s c) ∨
    (∃ k, swapTaken d s = some k ∧ e = swapEmission d s k) ∨
    (∃ ref rest p, promotedTags d turns s = ref :: rest ∧ p ∈ skewed (ref :: rest) ∧ e = skewEmission d s ref p) ∨
    (d.isRelease = true ∧ e = { key := .release, hands := releaseHands d turns s }) ∨
    ∃ c f, turns[c].lost = some f ∧ e = lossEmission c f := by
  have hskews : e ∈ skewEmissions d s (promotedTags d turns s) ↔
      ∃ ref rest p, promotedTags d turns s = ref :: rest ∧ p ∈ skewed (ref :: rest) ∧ e = skewEmission d s ref p := by
    cases promotedTags d turns s with
    | nil => simp [skewEmissions]
    | cons r rs => simp [skewEmissions, eq_comm]
  have hrelease : (e ∈ if d.isRelease then [{ key := .release, hands := releaseHands d turns s }] else []) ↔
      d.isRelease = true ∧ e = { key := .release, hands := releaseHands d turns s } := by
    split <;> simp [*]
  rw [frameEmissions_eq, List.mem_append, List.mem_append, List.mem_append, List.mem_append, hskews, hrelease]
  simp only [List.mem_map, List.mem_filter, mem_channels, true_and, Option.mem_toList, List.mem_filterMap,
    Option.map_eq_some_iff, or_assoc, eq_comm (a := e)]

theorem mem_channelHands (c : Channel) (a b : NoticeBody) (l : Link) :
    (l, a) ∈ channelHands c b ↔ (l = tileLink c ∨ l = 12) ∧ a = b := by
  simp only [channelHands, List.mem_cons, List.not_mem_nil, or_false, Prod.mk.injEq, SL]
  tauto

theorem mem_commitHands (k l : Link) (a b : NoticeBody) : (l, a) ∈ commitHands k b ↔ (l = k ∨ l = 12) ∧ a = b := by
  unfold commitHands
  split
  · simp only [List.mem_singleton, Prod.mk.injEq, ‹k = SL›, SL, or_self]
  · simp only [List.mem_cons, List.not_mem_nil, or_false, Prod.mk.injEq, SL]
    tauto

theorem mem_releaseHands (l : Link) (b : NoticeBody) : (l, b) ∈ releaseHands d turns s ↔
    (∃ c : Channel, (s.barrier.channels[c]).enrolled = true ∧ l = tileLink c ∧
      b = .release (turnNumber d s) (decide (d = .forced)) (releaseOutcome turns s c)) ∨
    (l = 12 ∧ b = .summary (turnNumber d s) (decide (d = .forced)) (channelSet fun c => participates s c && isReady s c)
      (channelSet fun c => participates s c && !isReady s c) (swapTaken d s).isSome) := by
  simp only [releaseHands, List.mem_append, List.mem_map, List.mem_filter, mem_channels, true_and, List.mem_singleton,
    Prod.mk.injEq, eq_comm (a := l), eq_comm (a := b), SL]

end Emissions

/-! #### What one link is handed -/

section Handed

variable (race : FrameRace) (s : State) (l : Link)

theorem mem_handedTo (b : NoticeBody) : b ∈ handedTo race s l ↔
    ∃ e ∈ frameEmissions (decision s) (receiverTurns race (decision s) s) s, (l, b) ∈ e.hands := by
  rw [handedTo, List.mem_map]
  constructor
  · rintro ⟨n, hn, rfl⟩
    obtain ⟨rfl, h⟩ := (mem_noticesAt race _ l n).mp hn
    exact h
  · exact fun h => ⟨(l, b), (mem_noticesAt race _ l (l, b)).mpr ⟨rfl, h⟩, rfl⟩

/-- A notice is handed by an emission of one of the five makes. -/
theorem mem_handedTo_cases (b : NoticeBody) : b ∈ handedTo race s l ↔
    (∃ c, stalls (decision s) s c = true ∧ (l = tileLink c ∨ l = 12) ∧
      b = .stalled c (turnNumber (decision s) s) (s.barrier.channels[c]).policy) ∨
    (∃ k, swapTaken (decision s) s = some k ∧ (l = k.link ∨ l = 12) ∧
      b = .swapped k.link k.count (turnNumber (decision s) s) k.floorPart) ∨
    (∃ ref rest p, promotedTags (decision s) (receiverTurns race (decision s) s) s = ref :: rest ∧
      p ∈ skewed (ref :: rest) ∧ (l = tileLink p.1 ∨ l = 12) ∧
        b = .skew p.1 p.2 ref.1 ref.2 (turnNumber (decision s) s)) ∨
    ((decision s).isRelease = true ∧ (l, b) ∈ releaseHands (decision s) (receiverTurns race (decision s) s) s) ∨
    ∃ c f, (turnOf race s c).lost = some f ∧ (l = tileLink c ∨ l = 12) ∧ b = .inputLost c f.1 f.2 := by
  rw [mem_handedTo]
  constructor
  · rintro ⟨e, he, hb⟩
    rcases (mem_frameEmissions _ _ s e).mp he with
      ⟨c, hc, rfl⟩ | ⟨k, hk, rfl⟩ | ⟨ref, rest, p, hpromoted, hp, rfl⟩ | ⟨hr, rfl⟩ | ⟨c, f, hf, rfl⟩
    · exact .inl ⟨c, hc, (mem_channelHands c _ _ l).mp hb⟩
    · exact .inr (.inl ⟨k, hk, (mem_commitHands _ l _ _).mp hb⟩)
    · exact .inr (.inr (.inl ⟨ref, rest, p, hpromoted, hp, (mem_channelHands _ _ _ l).mp hb⟩))
    · exact .inr (.inr (.inr (.inl ⟨hr, hb⟩)))
    · rw [getElem_receiverTurns] at hf
      exact .inr (.inr (.inr (.inr ⟨c, f, hf, (mem_channelHands c _ _ l).mp hb⟩)))
  · rintro (⟨c, hc, hb⟩ | ⟨k, hk, hb⟩ | ⟨ref, rest, p, hpromoted, hp, hb⟩ | ⟨hr, hb⟩ | ⟨c, f, hf, hb⟩)
    · exact ⟨_, (mem_frameEmissions _ _ s _).mpr (.inl ⟨c, hc, rfl⟩), (mem_channelHands c _ _ l).mpr hb⟩
    · exact ⟨_, (mem_frameEmissions _ _ s _).mpr (.inr (.inl ⟨k, hk, rfl⟩)), (mem_commitHands _ l _ _).mpr hb⟩
    · exact ⟨_, (mem_frameEmissions _ _ s _).mpr (.inr (.inr (.inl ⟨ref, rest, p, hpromoted, hp, rfl⟩))),
        (mem_channelHands _ _ _ l).mpr hb⟩
    · exact ⟨_, (mem_frameEmissions _ _ s _).mpr (.inr (.inr (.inr (.inl ⟨hr, rfl⟩)))), hb⟩
    · rw [← getElem_receiverTurns] at hf
      exact ⟨_, (mem_frameEmissions _ _ s _).mpr (.inr (.inr (.inr (.inr ⟨c, f, hf, rfl⟩)))),
        (mem_channelHands c _ _ l).mpr hb⟩

theorem stalled_mem_handedTo (c : Channel) (frame : Word32) (policy : StallPolicy) :
    .stalled c frame policy ∈ handedTo race s l ↔ stalls (decision s) s c = true ∧ (l = tileLink c ∨ l = 12) ∧
      frame = turnNumber (decision s) s ∧ policy = (s.barrier.channels[c]).policy := by
  rw [mem_handedTo_cases]
  simp only [mem_releaseHands, NoticeBody.stalled.injEq, reduceCtorEq, and_false, exists_false, or_false]
  constructor
  · rintro ⟨c', hc, hl, rfl, hf, hp⟩
    exact ⟨hc, hl, hf, hp⟩
  · rintro ⟨hc, hl, hf, hp⟩
    exact ⟨c, hc, hl, rfl, hf, hp⟩

theorem swapped_mem_handedTo (from_ : Link) (count : Nat) (frame : Word32) (floor : FloorPart) :
    .swapped from_ count frame floor ∈ handedTo race s l ↔ ∃ k, swapTaken (decision s) s = some k ∧
      (l = k.link ∨ l = 12) ∧ from_ = k.link ∧ count = k.count ∧ frame = turnNumber (decision s) s ∧
        floor = k.floorPart := by
  rw [mem_handedTo_cases]
  simp only [mem_releaseHands, NoticeBody.swapped.injEq, reduceCtorEq, and_false, exists_false, or_false, false_or]

theorem skew_mem_handedTo (c ref : Channel) (tag refTag frame : Word32) :
    .skew c tag ref refTag frame ∈ handedTo race s l ↔ (l = tileLink c ∨ l = 12) ∧
      frame = turnNumber (decision s) s ∧ ∃ rest,
        promotedTags (decision s) (receiverTurns race (decision s) s) s = (ref, refTag) :: rest ∧
          (c, tag) ∈ skewed ((ref, refTag) :: rest) := by
  rw [mem_handedTo_cases]
  simp only [mem_releaseHands, NoticeBody.skew.injEq, reduceCtorEq, and_false, exists_false, or_false, false_or]
  constructor
  · rintro ⟨⟨ref, refTag⟩, rest, ⟨c, tag⟩, hpromoted, hp, hl, rfl, rfl, rfl, rfl, hf⟩
    exact ⟨hl, hf, rest, hpromoted, hp⟩
  · rintro ⟨hl, hf, rest, hpromoted, hp⟩
    exact ⟨(ref, refTag), rest, (c, tag), hpromoted, hp, hl, rfl, rfl, rfl, rfl, hf⟩

theorem inputLost_mem_handedTo (c : Channel) (tag : Option Word32) (held : Bool) :
    .inputLost c tag held ∈ handedTo race s l ↔
      (l = tileLink c ∨ l = 12) ∧ (turnOf race s c).lost = some (tag, held) := by
  rw [mem_handedTo_cases]
  simp only [mem_releaseHands, NoticeBody.inputLost.injEq, reduceCtorEq, and_false, exists_false, or_false, false_or]
  constructor
  · rintro ⟨c, ⟨tag, held⟩, hf, hl, rfl, rfl, rfl⟩
    exact ⟨hl, hf⟩
  · rintro ⟨hl, hf⟩
    exact ⟨c, (tag, held), hf, hl, rfl, rfl, rfl⟩

theorem release_mem_handedTo (frame : Word32) (forced : Bool) (outcome : ReleaseOutcome) :
    .release frame forced outcome ∈ handedTo race s l ↔ (decision s).isRelease = true ∧
      ∃ c : Channel, (s.barrier.channels[c]).enrolled = true ∧ l = tileLink c ∧ frame = turnNumber (decision s) s ∧
        forced = decide (decision s = .forced) ∧
          outcome = releaseOutcome (receiverTurns race (decision s) s) s c := by
  rw [mem_handedTo_cases]
  simp only [mem_releaseHands, NoticeBody.release.injEq, reduceCtorEq, and_false, exists_false, or_false, false_or]

theorem summary_mem_handedTo (frame : Word32) (forced : Bool) (turned late : ChannelSet) (taken : Bool) :
    .summary frame forced turned late taken ∈ handedTo race s l ↔ (decision s).isRelease = true ∧ l = 12 ∧
      frame = turnNumber (decision s) s ∧ forced = decide (decision s = .forced) ∧
        turned = (channelSet fun c => participates s c && isReady s c) ∧
        late = (channelSet fun c => participates s c && !isReady s c) ∧
        taken = (swapTaken (decision s) s).isSome := by
  rw [mem_handedTo_cases]
  simp only [mem_releaseHands, NoticeBody.summary.injEq, reduceCtorEq, and_false, exists_false, or_false, false_or]

theorem turnNumber_of_release (h : ReleaseDue s) : turnNumber (decision s) s = s.barrier.skyFrame + 1 :=
  if_pos ((isRelease_iff s).mpr h)

end Handed

end Sys2Proof.Proofs

/-! ### Promotion, raster change and loss of input (R124 to R130) -/
namespace Sys2Proof.Proofs

open Sys2Proof.Machine

section Receivers

variable (race : FrameRace) (s : State) (c : Channel)

theorem declares_eq : declares (toldTo race (decision s) s c) s.receivers[c] = decide (LostNow race s c) :=
  Bool.eq_iff_iff.mpr ((declares_toldTo race s c).trans decide_eq_true_iff.symm)

theorem started_lossCount (i : Instr) : ((frameStart race (startState i s)).receivers[c]).lossCount =
    if s.receivers[c].state = .lost then s.receivers[c].lossCount else s.receivers[c].lossCount + 1 := by
  rw [started_receiver, turnOf, turn_lossCount]

theorem started_receiverState (i : Instr) : ((frameStart race (startState i s)).receivers[c]).state =
    if LostNow race s c then .lost
    else if RasterSwap s c ∧ s.receivers[c].state = .receiving then .idle else s.receivers[c].state := by
  rw [started_receiver, turnOf, turn_state]
  simp only [declares_toldTo, toldTo_raster_iff]

theorem toldTo_promote : ((toldTo race (decision s) s c).promote && (tagIn s.receivers[c] .ready).isSome) =
    decide (PromotionDue s c) :=
  Bool.eq_iff_iff.mpr ((toldTo_promote_iff race s c).trans decide_eq_true_iff.symm)

theorem isSome_ready_iff : (tagIn s.receivers[c] .ready).isSome = true ↔ Ready s c := isSome_tagIn_iff _ _

/-- A READY bank is still there where neither of two actions has taken it before. -/
theorem ready_remains_iff (ready raster promote : Bool) (P Q : Prop) [Decidable P] [Decidable Q] :
    (ready && !(raster && decide P) && !(promote && decide Q)) = true ↔
      ready = true ∧ (raster = true → ¬ P) ∧ ((promote && ready) = true → ¬ Q) := by
  cases ready <;> cases raster <;> cases promote <;> simp

/-- What an INPUT_LOST says: the tag of the frame in reception and the READY bank, as the loss finds them. -/
theorem turnOf_lost_iff {s : State} {c : Channel} (h : ReceiverOk s.receivers[c]) (tag : Option Word32) (held : Bool) :
    (turnOf race s c).lost = some (tag, held) ↔ LostNow race s c ∧
      (∀ v, tag = some v ↔ (RasterSwap s c → ¬ Before race.receivers[c] .raster .loss) ∧
        ∃ j : Fin 3, (s.receivers[c].banks[j]).state = .filling ∧ (s.receivers[c].banks[j]).tag = v) ∧
      (held = true ↔ Ready s c ∧ (RasterSwap s c → ¬ Before race.receivers[c] .raster .loss) ∧
        (PromotionDue s c → ¬ Before race.receivers[c] .promote .loss)) := by
  obtain ⟨hbanks, -⟩ := (receiverOk_iff _).mp h
  rw [turnOf, turn_lost _ hbanks, Option.ite_none_right_eq_some, declares_toldTo, Option.some_inj, Prod.mk.injEq,
    Option.ext_iff]
  refine and_congr_right fun _ => and_congr (forall_congr' fun v => ?_) ?_
  · rw [Option.ite_none_left_eq_some, tagIn_eq_some_iff (hbanks.sole .filling (by decide)), not_and, toldTo_raster_iff]
    exact iff_comm
  · refine Bool.eq_iff_iff.trans ?_
    rw [ready_remains_iff, isSome_ready_iff, toldTo_raster_iff, toldTo_promote_iff]
    exact iff_comm

theorem isSome_lost_iff {s : State} {c : Channel} (h : ReceiverOk s.receivers[c]) :
    (turnOf race s c).lost.isSome = true ↔ LostNow race s c := by
  obtain ⟨hbanks, -⟩ := (receiverOk_iff _).mp h
  rw [turnOf, turn_lost _ hbanks, ← declares_toldTo]
  split
  · exact iff_of_true rfl ‹_›
  · exact iff_of_false Bool.false_ne_true ‹_›

theorem started_losses {s : State} {c : Channel} (h : ReceiverOk s.receivers[c]) (i : Instr) :
    (frameStart race (startState i s)).counters[Counter.ofChannel c 6] =
      s.counters[Counter.ofChannel c 6] + if LostNow race s c then 1 else 0 := by
  rw [started_ofChannel race s c i (by decide), count_channelCounts, getElem_receiverTurns]
  by_cases hlost : (turnOf race s c).lost.isSome = true
  · rw [if_pos ((isSome_lost_iff race h).mp hlost)]
    simp [hlost]
  · rw [if_neg (mt (isSome_lost_iff race h).mpr hlost)]
    simp [hlost]

theorem isSome_filling_iff {s : State} {c : Channel} (h : ReceiverOk s.receivers[c]) :
    (tagIn s.receivers[c] .filling).isSome = true ↔ s.receivers[c].state = .receiving :=
  (isSome_tagIn_iff _ _).trans ((receiverOk_iff _).mp h).1.filling

theorem truncated_iff {s : State} {c : Channel} (h : ReceiverOk s.receivers[c]) :
    (turnOf race s c).truncated = true ↔ RasterSwap s c ∧ s.receivers[c].state = .receiving ∧
      ¬ (LostNow race s c ∧ Before race.receivers[c] .loss .raster) := by
  rw [turnOf, turn_truncated _ ((receiverOk_iff _).mp h).1, Bool.and_eq_true, Bool.and_eq_true, Bool.not_eq_true',
    ← Bool.not_eq_true, Bool.and_eq_true, decide_eq_true_iff, declares_toldTo, toldTo_raster_iff, isSome_filling_iff h,
    and_assoc]

theorem replaced_iff {s : State} {c : Channel} (h : ReceiverOk s.receivers[c]) :
    (turnOf race s c).replaced = true ↔ RasterSwap s c ∧ Ready s c ∧
      ¬ (PromotionDue s c ∧ Before race.receivers[c] .promote .raster) := by
  rw [turnOf, turn_replaced _ ((receiverOk_iff _).mp h).1, Bool.and_eq_true, Bool.and_eq_true, Bool.not_eq_true',
    ← Bool.not_eq_true, Bool.and_eq_true, decide_eq_true_iff, ← toldTo_promote_iff race, Bool.and_eq_true,
    toldTo_raster_iff, isSome_ready_iff, and_assoc]
  exact and_congr_right fun _ => and_congr_right fun hready => not_congr (and_congr_left' (and_iff_left hready).symm)

theorem started_truncated {s : State} {c : Channel} (h : ReceiverOk s.receivers[c]) (i : Instr) :
    (frameStart race (startState i s)).counters[Counter.ofChannel c 1] = s.counters[Counter.ofChannel c 1] +
      if RasterSwap s c ∧ s.receivers[c].state = .receiving ∧
        ¬ (LostNow race s c ∧ Before race.receivers[c] .loss .raster) then 1 else 0 := by
  rw [started_ofChannel race s c i (by decide), count_channelCounts, getElem_receiverTurns]
  by_cases htruncated : (turnOf race s c).truncated = true
  · rw [if_pos ((truncated_iff race h).mp htruncated)]
    simp [htruncated]
  · rw [if_neg (mt (truncated_iff race h).mpr htruncated)]
    simp [htruncated]

theorem started_replaced {s : State} {c : Channel} (h : ReceiverOk s.receivers[c]) (i : Instr) :
    (frameStart race (startState i s)).counters[Counter.ofChannel c 3] = s.counters[Counter.ofChannel c 3] +
      if RasterSwap s c ∧ Ready s c ∧ ¬ (PromotionDue s c ∧ Before race.receivers[c] .promote .raster)
        then 1 else 0 := by
  rw [started_ofChannel race s c i (by decide), count_channelCounts, getElem_receiverTurns]
  by_cases hreplaced : (turnOf race s c).replaced = true
  · rw [if_pos ((replaced_iff race h).mp hreplaced)]
    simp [hreplaced]
  · rw [if_neg (mt (replaced_iff race h).mpr hreplaced)]
    simp [hreplaced]

theorem started_bank {s : State} {c : Channel} (h : ReceiverOk s.receivers[c]) (i : Instr) (hr : ¬ RasterSwap s c)
    (j : Fin 3) : ((frameStart race (startState i s)).receivers[c]).banks[j] =
      turnedBank (decide (LostNow race s c)) (decide (PromotionDue s c)) s.receivers[c].banks[j] := by
  rw [started_receiver, turnOf, turn_bank_of_no_raster _ ((receiverOk_iff _).mp h).1 (toldTo_raster_eq_false race s c hr),
    declares_eq, toldTo_promote]

theorem started_bank_of_raster {s : State} {c : Channel} (h : ReceiverOk s.receivers[c]) (i : Instr)
    (hr : RasterSwap s c) (j : Fin 3) : ((frameStart race (startState i s)).receivers[c]).banks[j] =
      rasteredBank (if PromotionDue s c ∧ Before race.receivers[c] .promote .raster then .ready else .shown)
        s.receivers[c].banks[j] := by
  rw [started_receiver, turnOf, turn_bank_of_raster _ ((receiverOk_iff _).mp h).1 ((toldTo_raster_iff race s c).mpr hr)]
  simp only [toldTo_promote_iff]

/-- The bank that stays SHOWN through a raster change. -/
theorem exists_rastered {s : State} {c : Channel} (h : ReceiverOk s.receivers[c]) : ∃ j : Fin 3,
    (s.receivers[c].banks[j]).state =
      if PromotionDue s c ∧ Before race.receivers[c] .promote .raster then .ready else .shown := by
  split
  · next hp => exact hp.1.2
  · exact ((receiverOk_iff _).mp h).1.shown

end Receivers

/-- Settles O33: the loss count step and the loss declared. -/
theorem lossCountSteps : Obligations.LossCountSteps := by
  intro i race s c hs hok
  obtain ⟨hbanks, -⟩ := (receiverOk_iff _).mp hok
  have hstate := started_receiverState race s c i
  have hcount := started_lossCount race s c i
  refine ⟨_, exec_starts hs, fun hlost => ⟨?_, ?_⟩, fun hlost => ?_, fun hnot => ⟨?_, ?_⟩, fun hnow => ⟨?_, ?_, ?_⟩, ?_⟩
  · rw [hstate, if_neg fun hnow => hnow.1 hlost, if_neg (by rw [hlost]; simp), hlost]
  · rw [hcount, if_pos hlost]
  · rw [hcount, if_neg hlost]
  · rw [started_losses race hok, if_neg hnot, add_zero]
  · rw [hstate, if_neg hnot]
  · rw [hstate, if_pos hnow]
  · intro j hj
    have hreceiving := (turn_banksOk race.receivers[c] hbanks (t := toldTo race (decision s) s c)).filling.mp
      ⟨j, (congrArg (fun r : Receiver => r.banks[j].state) (started_receiver race s c i)).symm.trans hj⟩
    rw [turn_state, if_pos ((declares_toldTo race s c).mpr hnow)] at hreceiving
    cases hreceiving
  · rw [started_losses race hok, if_pos hnow]
  · intro l tag held
    rw [inputLost_mem_handedTo, turnOf_lost_iff race hok]

/-- Settles O32: the frame banks after a promotion and a raster change, in every order of the actions. -/
theorem promotionAndRasterChange : Obligations.PromotionAndRasterChange := by
  intro i race s c hs hok
  obtain ⟨hbanks, -⟩ := (receiverOk_iff _).mp hok
  refine ⟨_, exec_starts hs, fun hr => ⟨?_, ?_, ?_, fun j => ?_⟩, fun hr => ⟨?_, ?_, ?_, ?_⟩⟩
  · rw [started_receiver, turnOf, turn_lineCount]
  · exact (started_truncated race hok i).trans (by rw [if_neg fun h => hr h.1])
  · exact (started_replaced race hok i).trans (by rw [if_neg fun h => hr h.1])
  · rw [started_bank race hok i hr j]
    refine ⟨rfl, fun h => ?_, fun h => ?_, fun h => ?_, fun h => ?_⟩ <;> simp only [turnedBank, h, decide_eq_true_eq]
  · rw [started_receiverState]
    split
    · decide
    · split
      · decide
      · next hn => exact fun h => hn ⟨hr, h⟩
  · exact (started_truncated race hok i).trans (congrArg (_ + ·) (if_congr (and_iff_right hr) rfl rfl))
  · exact (started_replaced race hok i).trans (congrArg (_ + ·) (if_congr (and_iff_right hr) rfl rfl))
  · obtain ⟨j, hj⟩ := exists_rastered race hok
    refine ⟨j, hj, ?_, fun j' hne => ?_⟩
    · rw [started_bank_of_raster race hok i hr, rasteredBank, if_pos hj]
      rfl
    · rw [started_bank_of_raster race hok i hr, rasteredBank, if_neg fun hj' => hne ?_]
      refine hbanks.sole _ ?_ j' j hj' hj
      split <;> decide

end Sys2Proof.Proofs

/-! ### The decision and the swap (R102 to R104, R138, R140, R141) -/
namespace Sys2Proof.Proofs

open Sys2Proof.Machine

section Decided

variable (race : FrameRace) (s : State) (i : Instr)

theorem started_skyFrame : (frameStart race (startState i s)).barrier.skyFrame = turnNumber (decision s) s := by
  rw [started_barrier]
  rfl

theorem started_waitCount : (frameStart race (startState i s)).barrier.waitCount = waitAfter (decision s) s := by
  rw [started_barrier]
  rfl

/-- A counter of the part as a whole. -/
theorem started_global (n : CounterIx) (hn : n.val < 9) (hdone : n ≠ Counter.commitsDone) :
    (frameStart race (startState i s)).counters[n] = s.counters[n] +
      BitVec.ofNat 32 ((if n = Counter.frameStarts then 1 else 0) +
        (if n = Counter.releases ∧ (decision s).isRelease = true then 1 else 0) +
        (if n = Counter.forcedReleases ∧ decision s = .forced then 1 else 0) +
        (if n = Counter.skewReleases ∧
          (skewed (promotedTags (decision s) (receiverTurns race (decision s) s) s)).isEmpty = false then 1 else 0)) := by
  rw [started_counter race s i n hdone fun l => global_ne_ofLink hn l 3, count_global hn]

theorem started_releases : (frameStart race (startState i s)).counters[0] =
    s.counters[0] + if (decision s).isRelease = true then 1 else 0 := by
  refine (started_global race s i Counter.releases (by decide) (by decide)).trans ?_
  cases (decision s).isRelease <;>
    simp [Counter.releases, Counter.frameStarts, Counter.forcedReleases, Counter.skewReleases]

theorem started_forced : (frameStart race (startState i s)).counters[1] =
    s.counters[1] + if decision s = .forced then 1 else 0 := by
  refine (started_global race s i Counter.forcedReleases (by decide) (by decide)).trans ?_
  by_cases h : decision s = .forced <;>
    simp [Counter.releases, Counter.frameStarts, Counter.forcedReleases, Counter.skewReleases, h]

theorem started_skewReleases : (frameStart race (startState i s)).counters[7] = s.counters[7] +
    if skewed (promotedTags (decision s) (receiverTurns race (decision s) s) s) = [] then 0 else 1 := by
  refine (started_global race s i Counter.skewReleases (by decide) (by decide)).trans ?_
  by_cases h : skewed (promotedTags (decision s) (receiverTurns race (decision s) s) s) = [] <;>
    simp [Counter.releases, Counter.frameStarts, Counter.forcedReleases, Counter.skewReleases, h]

theorem started_frameStarts : (frameStart race (startState i s)).counters[6] = s.counters[6] + 1 := by
  refine (started_global race s i Counter.frameStarts (by decide) (by decide)).trans ?_
  simp [Counter.releases, Counter.frameStarts, Counter.forcedReleases, Counter.skewReleases]

/-! #### The swap -/

variable {s}

theorem swapAt_of_none {d : Decision} (h : swapTaken d s = none) : swapAt d s = s := by
  unfold swapAt
  rw [h]

theorem swapAt_of_some {d : Decision} {k : CurrentCommit} (h : swapTaken d s = some k) :
    swapAt d s = takeSwap k (turnNumber d s) s := by
  unfold swapAt
  rw [h]

theorem swapTaken_eq_none (h : ∀ k, ¬ SwapDue s k) : swapTaken (decision s) s = none :=
  Option.eq_none_iff_forall_ne_some.mpr fun k hk => h k ((swapTaken_eq_some_iff s k).mp hk)

/-- What a frame start makes of the tables, the queue, the engine and the commits done is what the swap makes of them. -/
theorem started_commit : (frameStart race (startState i s)).tables = (swapAt (decision s) (startState i s)).tables ∧
    (frameStart race (startState i s)).staging = (swapAt (decision s) (startState i s)).staging ∧
    (frameStart race (startState i s)).engine = (swapAt (decision s) (startState i s)).engine ∧
    (frameStart race (startState i s)).counters[2] = (swapAt (decision s) (startState i s)).counters[2] := by
  refine ⟨frameStart_tables race _, frameStart_staging race _, frameStart_engine race _, ?_⟩
  refine (frameStart_counter race (startState i s) Counter.commitsDone fun l => global_ne_ofLink (by decide) l 3).trans ?_
  rw [count_global (by decide)]
  simp [Counter.commitsDone, Counter.releases, Counter.frameStarts, Counter.forcedReleases, Counter.skewReleases]
  rfl

end Decided

/-- Settles O29: the barrier's decision and what it leaves. -/
theorem barrierDecides : Obligations.BarrierDecides := by
  intro i race s hs
  have hsky := started_skyFrame race s i
  have hwait := started_waitCount race s i
  have hreleases := started_releases race s i
  have hforced := started_forced race s i
  refine ⟨_, exec_starts hs, fun h => ?_, fun h hp => ?_, fun h => ?_, fun h hp hr => ?_, fun hswap => ?_⟩
  · rw [hsky, hwait, hreleases, hforced, decision_notEligible h]
    exact ⟨rfl, rfl, add_zero _, add_zero _⟩
  · rw [hsky, hwait, hreleases, hforced, decision_emptySet h hp]
    exact ⟨rfl, rfl, add_zero _, add_zero _⟩
  · have hrelease := (isRelease_iff s).mpr h
    obtain ⟨hcadence, hp, hdue⟩ := h
    refine ⟨hwait.trans ?_, hsky.trans (if_pos hrelease), hreleases.trans (by rw [if_pos hrelease]), fun hready => ?_,
      fun hlate => ?_⟩
    · cases hd : decision s <;> rw [hd] at hrelease <;> trivial
    · rw [hforced, decision_normal hcadence hp hready]
      exact add_zero _
    · have hwaited := hdue.resolve_left fun hr => let ⟨c, hc, hn⟩ := hlate; hn (hr c hc)
      rw [hforced, if_pos (decision_forced hcadence hlate hwaited)]
  · have hlate : ∃ c, InP s c ∧ ¬ Ready s c := by
      by_contra hn
      exact hr ⟨h, hp, .inl fun c hc => by_contra fun hu => hn ⟨c, hc, hu⟩⟩
    have hhold := decision_hold h hlate fun hw => hr ⟨h, hp, .inr hw⟩
    rw [hsky, hwait, hreleases, hforced, hhold]
    exact ⟨rfl, rfl, add_zero _, add_zero _⟩
  · obtain ⟨htables, hstaging, hengine, hdone⟩ := started_commit race (s := s) i
    have hnone : swapAt (decision s) (startState i s) = startState i s := swapAt_of_none (swapTaken_eq_none hswap)
    rw [hnone] at htables hstaging hengine hdone
    exact ⟨htables, hstaging, hengine, hdone⟩

/-- Settles O30: the swap of an armed commit, taken whole, and its notices. -/
theorem swapTakenWhole : Obligations.SwapTakenWhole := by
  constructor
  · intro i race s hs
    refine ⟨_, exec_starts hs, fun l from_ count frame floor => ?_⟩
    rw [swapped_mem_handedTo, started_skyFrame]
    simp only [swapTaken_eq_some_iff]
    rfl
  · intro i race s k hs hdue
    obtain ⟨htables, hstaging, hengine, hdone⟩ := started_commit race (s := s) i
    have hswap : swapAt (decision s) (startState i s) = takeSwap k (turnNumber (decision s) s) (startState i s) :=
      swapAt_of_some ((swapTaken_eq_some_iff s k).mpr hdue)
    rw [hswap] at htables hstaging hengine hdone
    refine ⟨_, exec_starts hs, htables, hstaging.trans ?_, ?_, hdone.trans ?_⟩
    · change s.staging.removeMarked = _
      rw [Staging.removeMarked, Staging.unmarked, markedCount_eq_markCount]
    · rw [hengine, started_skyFrame]
      rfl
    · exact (getElem_bump _ _ 2 (by decide)).trans (if_pos rfl)

end Sys2Proof.Proofs

/-! ### Late and stalled channels (R142 to R145, R148) -/
namespace Sys2Proof.Proofs

open Sys2Proof.Machine

/-! #### A receiver without a READY bank -/

section Unready

theorem updBank_unready {r : Receiver} {i : Fin 3} {f : FrameBank → FrameBank} (hf : ∀ b, (f b).state ≠ .ready)
    (h : ∀ j : Fin 3, r.banks[j].state ≠ .ready) (j : Fin 3) : ((r.updBank i f).banks[j]).state ≠ .ready := by
  by_cases hj : j = i
  · subst hj
    rw [updBank_same]
    exact hf _
  · rw [updBank_other _ _ hj]
    exact h j

theorem freeBankIn_unready {r : Receiver} {st : BankState} (h : ∀ j : Fin 3, r.banks[j].state ≠ .ready) (j : Fin 3) :
    ((r.freeBankIn st).banks[j]).state ≠ .ready := by
  unfold Receiver.freeBankIn
  split
  · exact h j
  · exact updBank_unready (fun _ => by simp [FrameBank.become]) h j

theorem clearShown_unready {r : Receiver} (h : ∀ j : Fin 3, r.banks[j].state ≠ .ready) (j : Fin 3) :
    (r.clearShown.banks[j]).state ≠ .ready := by
  unfold Receiver.clearShown
  split
  · exact h j
  · exact updBank_unready (fun _ => by simp [FrameBank.cleared]) h j

/-- No bank is READY, and no tag has been handed back. -/
def Unready (g : Turning) : Prop := (∀ j : Fin 3, (g.receiver.banks[j]).state ≠ .ready) ∧ g.tag = none

theorem act_unready {t : Told} {g : Turning} (a : ReceiverAct) (h : Unready g) : Unready (g.act t a) := by
  obtain ⟨hbanks, htag⟩ := h
  cases a
  case loss =>
    refine ⟨?_, lossStep_tag.trans htag⟩
    change ∀ j : Fin 3, ((g.lossStep t).receiver.banks[j]).state ≠ .ready
    rw [lossStep_eq]
    split
    · exact freeBankIn_unready hbanks
    · exact hbanks
  case promote =>
    have hstays : g.act t .promote = g := promoteStep_of_not fun hp => let ⟨j, hj⟩ := hp.2; hbanks j hj
    rw [hstays]
    exact ⟨hbanks, htag⟩
  case raster =>
    refine ⟨?_, rasterStep_tag.trans htag⟩
    change ∀ j : Fin 3, ((g.rasterStep t).receiver.banks[j]).state ≠ .ready
    cases ht : t.raster with
    | true =>
      rw [rasterStep_of_raster ht]
      exact clearShown_unready (freeBankIn_unready (freeBankIn_unready hbanks))
    | false =>
      rw [rasterStep_of_not ht]
      exact hbanks

theorem acts_unready {t : Told} (as : List ReceiverAct) : ∀ g : Turning, Unready g →
    Unready (as.foldl (Turning.act t) g) := by
  induction as with
  | nil => exact fun _ h => h
  | cons a as ih => exact fun g h => ih (g.act t a) (act_unready a h)

end Unready

/-! #### What the barrier holds for a channel -/

section Channels

variable (race : FrameRace) (s : State) (i : Instr) (c : Channel)

theorem started_channel : (frameStart race (startState i s)).barrier.channels[c] =
    channelAfter (decision s) s (turnOf race s c).tag c := by
  rw [started_barrier, ← getElem_receiverTurns]
  simp [barrierAfter]

theorem started_lates : (frameStart race (startState i s)).counters[Counter.ofChannel c 4] =
    s.counters[Counter.ofChannel c 4] + if isLate (decision s) s c = true then 1 else 0 := by
  rw [started_ofChannel race s c i (by decide), count_channelCounts]
  cases isLate (decision s) s c <;> simp

theorem started_stalls : (frameStart race (startState i s)).counters[Counter.ofChannel c 5] =
    s.counters[Counter.ofChannel c 5] + if stalls (decision s) s c = true then 1 else 0 := by
  rw [started_ofChannel race s c i (by decide), count_channelCounts]
  cases stalls (decision s) s c <;> simp

variable {s c}

theorem channelAfter_ready (tag : Option Word32) (hp : InP s c) (hr : Ready s c) (hd : ReleaseDue s) :
    channelAfter (decision s) s tag c = { s.barrier.channels[c] with lateCount := 0, dark := false } := by
  rw [channelAfter, if_pos hp.1, if_pos]
  rw [(isRelease_iff s).mpr hd, (participates_iff s c).mpr hp, (isReady_iff s c).mpr hr]
  rfl

theorem channelAfter_late (tag : Option Word32) (hl : isLate (decision s) s c = true) :
    channelAfter (decision s) s tag c = { s.barrier.channels[c] with
      lateCount := raisedLate s c
      stalled := stalls (decision s) s c
      dark := (s.barrier.channels[c]).dark ||
        (stalls (decision s) s c && decide ((s.barrier.channels[c]).policy = .dark)) } := by
  obtain ⟨hp, hr, -⟩ := (isLate_iff s c).mp hl
  have hready : isReady s c = false := Bool.eq_false_iff.mpr (mt (isReady_iff s c).mp hr)
  rw [channelAfter, if_pos hp.1, if_neg (by rw [hready]; simp), if_pos hl, hp.2, Bool.false_or]

/-- An enrolled channel that is neither released ready nor late stays as it was. -/
theorem channelAfter_stays (tag : Option Word32) (he : (s.barrier.channels[c]).enrolled = true)
    (hn : ¬ (InP s c ∧ ReleaseDue s)) : channelAfter (decision s) s tag c = s.barrier.channels[c] := by
  rw [channelAfter, if_pos he, if_neg, if_neg]
  · rw [isLate_iff]
    exact fun h => hn ⟨h.1, h.2.2⟩
  · rw [Bool.and_eq_true, Bool.and_eq_true, isRelease_iff, participates_iff]
    exact fun h => hn ⟨h.1.2, h.1.1⟩

theorem channelAfter_absent (tag : Option Word32) (he : (s.barrier.channels[c]).enrolled = false) :
    channelAfter (decision s) s tag c =
      if tag.isSome = true then { s.barrier.channels[c] with dark := false } else s.barrier.channels[c] :=
  if_neg (by rw [he]; exact Bool.false_ne_true)

/-- A promotion hands a tag back where `HandsBack` says so. -/
theorem turnOf_tag_iff (h : ReceiverOk s.receivers[c]) (v : Word32) :
    (turnOf race s c).tag = some v ↔ HandsBack race s c v := by
  obtain ⟨hbanks, -⟩ := (receiverOk_iff _).mp h
  have hready (hj : ∃ j : Fin 3, (s.receivers[c].banks[j]).state = .ready ∧ (s.receivers[c].banks[j]).tag = v) :
      (tagIn s.receivers[c] .ready).isSome = true := (isSome_ready_iff s c).mpr (hj.imp fun _ => And.left)
  rw [turnOf, turn_tag _ hbanks, Option.ite_none_right_eq_some, tagIn_eq_some_iff (hbanks.sole .ready (by decide)),
    HandsBack, ← toldTo_promote_iff race, ← toldTo_raster_iff race, Bool.and_eq_true]
  constructor
  · rintro ⟨⟨hp, hb⟩, hj⟩
    exact ⟨⟨hp, hready hj⟩, hb, hj⟩
  · rintro ⟨hp, hb, hj⟩
    exact ⟨⟨hp.1, hb⟩, hj⟩

/-- No tag is handed back where no bank is READY. -/
theorem turnOf_tag_eq_none (h : ¬ Ready s c) : (turnOf race s c).tag = none :=
  (acts_unready _ _ ⟨not_exists.mp h, rfl⟩).2

end Channels

/-- Settles O31: lateness, stalls and darkness at a frame start. -/
theorem channelsLateAndStalled : Obligations.ChannelsLateAndStalled := by
  intro i race s c hs
  have hchannel := started_channel race s i c
  have hlates := started_lates race s i c
  have hstalls := started_stalls race s i c
  refine ⟨_, exec_starts hs, fun he hst => ?_, fun hp hn => ?_, fun hp hr hd => ?_, fun hp hr hd => ?_, fun hn => ?_,
    fun he => ⟨fun hr => ?_, fun hok => ⟨fun hb => ?_, fun hb => ?_⟩⟩, fun l frame policy => ?_⟩
  · rw [hchannel, channelAfter_stays _ he fun h => by rw [h.1.2] at hst; cases hst]
  · rw [hchannel, channelAfter_stays _ hp.1 fun h => hn h.2]
  · rw [hchannel, channelAfter_ready _ hp hr hd]
  · have hlate := (isLate_iff s c).mpr ⟨hp, hr, hd⟩
    intro n stall
    have hstall : stalls (decision s) s c = stall := by rw [stalls, hlate, Bool.true_and]; rfl
    rw [hchannel, hlates, hstalls, channelAfter_late _ hlate, if_pos hlate, hstall]
    refine ⟨rfl, ?_, rfl⟩
    cases stall
    · exact add_zero _
    · rfl
  · have hlate : ¬ isLate (decision s) s c = true := mt (isLate_iff s c).mp hn
    rw [hlates, hstalls, if_neg hlate, if_neg fun hst => hn ((stalls_iff s c).mp hst).1]
    exact ⟨add_zero _, add_zero _⟩
  · rw [hchannel, channelAfter_absent _ he, turnOf_tag_eq_none race hr]
    rfl
  · obtain ⟨v, hv⟩ := hb
    rw [hchannel, channelAfter_absent _ he, (turnOf_tag_iff race hok v).mpr hv]
    rfl
  · rw [hchannel, channelAfter_absent _ he,
      Option.eq_none_iff_forall_ne_some.mpr fun v hv => hb v ((turnOf_tag_iff race hok v).mp hv)]
    rfl
  · rw [stalled_mem_handedTo, stalls_iff]
    constructor
    · rintro ⟨⟨⟨hp, hr, hd⟩, hz, hlimit⟩, hl, hf, hpolicy⟩
      exact ⟨hl, hp, hr, hd, hz, hlimit, hf.trans (turnNumber_of_release s hd), hpolicy⟩
    · rintro ⟨hl, hp, hr, hd, hz, hlimit, hf, hpolicy⟩
      exact ⟨⟨⟨hp, hr, hd⟩, hz, hlimit⟩, hl, hf.trans (turnNumber_of_release s hd).symm, hpolicy⟩

end Sys2Proof.Proofs

/-! ### Every block at a frame start (R54, R136, R161, R167, R172, R174) -/
namespace Sys2Proof.Proofs

open Sys2Proof.Machine

section Blocks

variable {race : FrameRace} {s : State} {i : Instr}

theorem resetHeld_of_taken (h : FrameStartTaken s i race) : s.resetHeld = false := by
  cases i <;> try exact h.elim
  all_goals exact h.2.1

theorem startTiming_of_taken (h : FrameStartTaken s i race) (hi : ∀ time, i ≠ .refEdge time race) :
    startTiming s.timing i = ownTiming s.timing := by
  cases i
  case refEdge time r =>
    obtain ⟨rfl, -⟩ := h
    exact absurd rfl (hi time)
  all_goals rfl

theorem ownTiming_cases (t : Timing) : ownTiming t = periodTiming t ∨
    ∃ e, t.state = .locked ∧ t.lastEdge = some e ∧ ownTiming t = substituteTiming e t := by
  by_cases h : t.state = .locked
  · cases he : t.lastEdge with
    | none =>
      refine .inl ?_
      unfold ownTiming
      split
      · next he' => exact nomatch he.symm.trans he'
      · rfl
    | some e => exact .inr ⟨e, h, rfl, ownTiming_locked h he⟩
  · exact .inl (ownTiming_unlocked h)

/-- The timing at a frame start is that of a period elapsed, of a substitute or of a REF edge. -/
theorem startTiming_cases (t : Timing) (i : Instr) : startTiming t i = periodTiming t ∨
    (∃ e, startTiming t i = substituteTiming e t) ∨ ∃ time, startTiming t i = edgeStartTiming time t := by
  have hown : ownTiming t = periodTiming t ∨ (∃ e, ownTiming t = substituteTiming e t) ∨
      ∃ time, ownTiming t = edgeStartTiming time t := by
    rcases ownTiming_cases t with h | ⟨e, -, -, h⟩
    · exact .inl h
    · exact .inr (.inl ⟨e, h⟩)
  cases i
  case refEdge time r => exact .inr (.inr ⟨time, rfl⟩)
  all_goals exact hown

theorem startTiming_lastFrameStart (t : Timing) (i : Instr) :
    (startTiming t i).lastFrameStart = (startTiming t i).clock := by
  rcases startTiming_cases t i with h | ⟨e, h⟩ | ⟨time, h⟩ <;> rw [h] <;> rfl

/-- Beside the times and the substituted flag a frame start finds the timing as it was. -/
theorem startTiming_eq (t : Timing) (i : Instr) : startTiming t i = { t with
    clock := (startTiming t i).clock, lastFrameStart := (startTiming t i).lastFrameStart
    lastEdge := (startTiming t i).lastEdge, substituted := (startTiming t i).substituted } := by
  rcases startTiming_cases t i with h | ⟨e, h⟩ | ⟨time, h⟩ <;> rw [h] <;> rfl

/-- Every engine fixes the frame context that the frame start leaves, and begins at pixel (0, 0). -/
theorem frameStart_engineAt (race : FrameRace) (s : State) (c : Channel) : (frameStart race s).engines[c] =
    { context := some (contextOf (frameStart race s) c), x := 0, y := 0, out := s.engines[c].out } := by
  have hblocks : (blocksAfter (decision s) (receiverTurns race (decision s) s) s).engines = s.engines := by
    unfold blocksAfter
    rw [swapAt_frame]
  have hcontext : contextOf (frameStart race s) c =
      contextOf (blocksAfter (decision s) (receiverTurns race (decision s) s) s) c := by
    rw [frameStart_eq]
    rfl
  rw [hcontext, frameStart_eq]
  simp only [beginFrames, hblocks]
  simp

theorem started_timing (race : FrameRace) (s : State) (i : Instr) : (frameStart race (startState i s)).timing =
    { startTiming s.timing i with outputs := updAll s.timing.outputs fun _ o => o.advance } := by
  rw [frameStart_timing]
  change { startTiming s.timing i with outputs := updAll (startTiming s.timing i).outputs fun _ o => o.advance } = _
  rw [startTiming_eq]

/-- The moment of a frame start that no REF edge brings. -/
theorem ownTiming_moment (t : Timing) : (ownTiming t).lastEdge = t.lastEdge ∧
    (t.state ≠ .locked → (ownTiming t).substituted = t.substituted ∧
      (ownTiming t).clock = max t.clock (t.lastFrameStart + t.period)) ∧
    ∀ e, t.state = .locked → t.lastEdge = some e → (ownTiming t).substituted = true ∧
      (ownTiming t).clock = max t.clock (e + t.period + t.period / 256) := by
  refine ⟨?_, fun h => ?_, fun e h he => ?_⟩
  · rcases ownTiming_cases t with h | ⟨e, -, -, h⟩ <;> rw [h] <;> rfl
  · rw [ownTiming_unlocked h]
    exact ⟨rfl, rfl⟩
  · rw [ownTiming_locked h he]
    exact ⟨rfl, rfl⟩

/-- The bank a frame context names is SHOWN where one is. -/
theorem contextOf_shown (t : State) (c : Channel) (h : ∃ j : Fin 3, (t.receivers[c].banks[j]).state = .shown) :
    (t.receivers[c].banks[(contextOf t c).shown]).state = .shown := by
  obtain ⟨j, hj⟩ := Option.isSome_iff_exists.mp ((Receiver.bankIn_isSome _ _).mpr h)
  have hshown : (contextOf t c).shown = j := congrArg (·.getD 0) hj
  exact (congrArg (fun k : Fin 3 => (t.receivers[c].banks[k]).state) hshown).trans (Receiver.bankIn_some hj).1

theorem fadeStep_eq (f : Fade) : f.step = if 0 < f.remaining then
      { level := ((f.level : Int) + ((f.target : Int) - f.level).tdiv f.remaining).toNat
        target := f.target, remaining := f.remaining - 1 }
    else { level := f.target, target := f.target, remaining := 0 } := by
  unfold Fade.step
  split
  · rfl
  · next h => rw [Nat.eq_zero_of_not_pos h]

/-- The counters that no block counts at a frame start. -/
theorem started_uncounted (race : FrameRace) (s : State) (i : Instr) (n : CounterIx)
    (hn : n = 3 ∨ n = 4 ∨ n = 5 ∨ n = 8 ∨
      (∃ c : Channel, n = Counter.ofChannel c 0 ∨ n = Counter.ofChannel c 2) ∨
      ∃ l : Link, n = Counter.ofLink l 0 ∨ n = Counter.ofLink l 1 ∨ n = Counter.ofLink l 2) :
    (frameStart race (startState i s)).counters[n] = s.counters[n] := by
  have hglobal (n : CounterIx) (hn : n.val < 9) (h : n ≠ Counter.commitsDone ∧ n ≠ Counter.frameStarts ∧
      n ≠ Counter.releases ∧ n ≠ Counter.forcedReleases ∧ n ≠ Counter.skewReleases) :
      (frameStart race (startState i s)).counters[n] = s.counters[n] := by
    obtain ⟨hdone, hstarts, hreleases, hforced, hskews⟩ := h
    rw [started_global race s i n hn hdone]
    simp [hstarts, hreleases, hforced, hskews]
  have hchannel (c : Channel) (k : Fin 8) (hk : k = 0 ∨ k = 2) :
      (frameStart race (startState i s)).counters[Counter.ofChannel c k] = s.counters[Counter.ofChannel c k] := by
    rw [started_ofChannel race s c i (by rcases hk with rfl | rfl <;> decide), count_channelCounts]
    rcases hk with rfl | rfl <;> simp
  have hlink (l : Link) (k : Fin 4) (hk : k ≠ 3) :
      (frameStart race (startState i s)).counters[Counter.ofLink l k] = s.counters[Counter.ofLink l k] := by
    rw [started_counter race s i _ (Ne.symm (global_ne_ofLink (by decide) l k)) fun l' h => hk (ofLink_inj.mp h).2,
      count_ofLink]
    exact add_zero _
  rcases hn with rfl | rfl | rfl | rfl | ⟨c, rfl | rfl⟩ | ⟨l, rfl | rfl | rfl⟩
  · exact hglobal 3 (by decide) (by decide)
  · exact hglobal 4 (by decide) (by decide)
  · exact hglobal 5 (by decide) (by decide)
  · exact hglobal 8 (by decide) (by decide)
  · exact hchannel c 0 (.inl rfl)
  · exact hchannel c 2 (.inr rfl)
  · exact hlink l 0 (by decide)
  · exact hlink l 1 (by decide)
  · exact hlink l 2 (by decide)

theorem frameStart_banks (race : FrameRace) (s : State) :
    (frameStart race s).tables.bankA = s.tables.bankA ∧ (frameStart race s).tables.bankB = s.tables.bankB := by
  rw [frameStart_tables, swapAt_tables]
  cases swapTaken (decision s) s <;> exact ⟨rfl, rfl⟩

end Blocks

/-- Settles O28: what a frame start moves in every block, and what it leaves. -/
theorem frameStartMovesEveryBlock : Obligations.FrameStartMovesEveryBlock := by
  refine ⟨fun i race c s hi hn => exec_starts_not hi hn, fun i race s hs => ⟨_, exec_starts hs, ?_⟩⟩
  have hkept := startTiming_eq s.timing i
  have hframe := frameStart_frame (startState i s) race
  have htiming := started_timing race s i
  have hbarrier := started_barrier race s i
  have hfade := (frameStart_fade race (startState i s)).trans (fadeStep_eq s.fade)
  have hbanks := frameStart_banks race (startState i s)
  refine ⟨?_, fun time hi => ?_, fun hi => ?_, hfade, fun c => ?_, ?_, fun c => ?_, started_frameStarts race s i,
    started_uncounted race s i, hbanks.1, hbanks.2, ?_⟩
  · rw [htiming]
    exact startTiming_lastFrameStart _ _
  · subst hi
    rw [htiming]
    exact ⟨rfl, rfl, rfl⟩
  · rw [htiming, startTiming_of_taken hs hi]
    exact ownTiming_moment s.timing
  · rw [htiming]
    simp only [Fin.getElem_fin, getElem_updAll]
    cases s.timing.outputs[c.val] <;> rfl
  · rw [hbarrier]
    rfl
  · refine ⟨_, contextOf_shown _ c, (frameStart_engineAt race (startState i s) c).trans ?_⟩
    have hcontext : contextOf (frameStart race (startState i s)) c =
        { contextOf (frameStart race (startState i s)) c with
          width := s.timing.width, height := s.timing.height } := by
      rw [contextOf, htiming, hkept]
    rw [hcontext]
    rfl
  · have hready := resetHeld_of_taken hs
    have hheld := (congrArg State.resetHeld hframe).trans hready
    have hmode := congrArg State.mode hframe
    have hpending := congrArg State.pending hframe
    rw [htiming, hbarrier, hkept]
    exact ⟨rfl, rfl, rfl, rfl, rfl, rfl, rfl, rfl, rfl, rfl, rfl, hheld, hmode, hpending,
      frameStart_ports race (startState i s)⟩

end Sys2Proof.Proofs

/-! ### Tag skew (R149) -/
namespace Sys2Proof.Proofs

open Sys2Proof.Machine

section Skew

variable (race : FrameRace) (s : State)

/-- The channels of P promoted at this frame start, each with the tag it hands back, in ascending channel. -/
def handedBack : List (Channel × Word32) := promotedTags (decision s) (receiverTurns race (decision s) s) s

theorem mem_promoted (c : Channel) (p : Channel × Word32) :
    (if participates s c then ((receiverTurns race (decision s) s)[c]).tag.map fun t => (c, t) else none) = some p ↔
      participates s c = true ∧ p.1 = c ∧ (turnOf race s c).tag = some p.2 := by
  rw [getElem_receiverTurns, Option.ite_none_right_eq_some, Option.map_eq_some_iff]
  refine and_congr_right fun _ => ⟨?_, ?_⟩
  · rintro ⟨v, hv, rfl⟩
    exact ⟨rfl, hv⟩
  · rintro ⟨rfl, hv⟩
    exact ⟨p.2, hv, rfl⟩

variable {s}

theorem mem_handedBack (h : ∀ c : Channel, ReceiverOk s.receivers[c]) (c : Channel) (v : Word32) :
    (c, v) ∈ handedBack race s ↔ ReleaseDue s ∧ InP s c ∧ HandsBack race s c v := by
  have hmem : (c, v) ∈ handedBack race s ↔ (decision s).isRelease = true ∧ participates s c = true ∧
      (turnOf race s c).tag = some v := by
    unfold handedBack promotedTags
    split
    · rw [List.mem_filterMap]
      constructor
      · rintro ⟨c', -, hc⟩
        obtain ⟨hp, rfl, hv⟩ := (mem_promoted race s c' (c, v)).mp hc
        exact ⟨‹_›, hp, hv⟩
      · rintro ⟨-, hp, hv⟩
        exact ⟨c, mem_channels c, (mem_promoted race s c (c, v)).mpr ⟨hp, rfl, hv⟩⟩
    · exact iff_of_false List.not_mem_nil fun hr => ‹¬ _› hr.1
  rw [hmem, isRelease_iff, participates_iff, turnOf_tag_iff race (h c)]

variable (s)

theorem handedBack_ascending : (handedBack race s).Pairwise fun p q => p.1 < q.1 := by
  have hchannels : channels.Pairwise (· < ·) := by decide
  unfold handedBack promotedTags
  split
  · refine List.Pairwise.filterMap _ (fun c c' hlt p hp q hq => ?_) hchannels
    obtain ⟨-, rfl, -⟩ := (mem_promoted race s c p).mp hp
    obtain ⟨-, rfl, -⟩ := (mem_promoted race s c' q).mp hq
    exact hlt
  · exact List.Pairwise.nil

variable {s}

theorem handedBack_eq_nil (hok : ∀ c : Channel, ReceiverOk s.receivers[c])
    (h : ¬ ReleaseDue s ∨ ∀ c tag, InP s c → ¬ HandsBack race s c tag) : handedBack race s = [] := by
  refine List.eq_nil_iff_forall_not_mem.mpr fun ⟨c, v⟩ hmem => ?_
  obtain ⟨hr, hp, hv⟩ := (mem_handedBack race hok c v).mp hmem
  exact h.elim (fun hn => hn hr) fun hn => hn c v hp hv

/-- The reference is the lowest-numbered channel that hands a tag back. -/
theorem handedBack_eq_cons (hok : ∀ c : Channel, ReceiverOk s.receivers[c]) {ref : Channel} {refTag : Word32}
    (hr : ReleaseDue s) (hp : InP s ref) (hv : HandsBack race s ref refTag)
    (hmin : ∀ c tag, InP s c → HandsBack race s c tag → ref.val ≤ c.val) :
    ∃ rest, handedBack race s = (ref, refTag) :: rest := by
  have hmem := (mem_handedBack race hok ref refTag).mpr ⟨hr, hp, hv⟩
  cases hlist : handedBack race s with
  | nil =>
    rw [hlist] at hmem
    cases hmem
  | cons r rest =>
    have hfirst := (mem_handedBack race hok r.1 r.2).mp (by rw [hlist]; exact List.mem_cons_self)
    have hle : ref.val ≤ r.1.val := hmin r.1 r.2 hfirst.2.1 hfirst.2.2
    have hsorted := handedBack_ascending race s
    rw [hlist] at hmem hsorted
    rcases List.mem_cons.mp hmem with he | hrest
    · exact ⟨rest, by rw [he]⟩
    · have hlt : r.1 < ref := (List.pairwise_cons.mp hsorted).1 _ hrest
      exact absurd (Fin.lt_def.mp hlt) (Nat.not_lt.mpr hle)

/-- The channels that count are those whose tag differs from the reference's. -/
theorem mem_skewed (r p : Channel × Word32) (rest : List (Channel × Word32)) :
    p ∈ skewed (r :: rest) ↔ p ∈ r :: rest ∧ p.2 ≠ r.2 := by
  rw [skewed, List.mem_filter, decide_eq_true_iff, List.mem_cons]
  refine and_congr_left fun hne => ⟨.inr, fun h => h.resolve_left ?_⟩
  rintro rfl
  exact hne rfl

variable (s)

theorem skewed_ascending : (skewed (handedBack race s)).Pairwise fun p q => p.1 < q.1 := by
  have hsorted := handedBack_ascending race s
  cases hlist : handedBack race s with
  | nil => exact List.Pairwise.nil
  | cons r rest =>
    rw [hlist] at hsorted
    exact (List.pairwise_cons.mp hsorted).2.filter _

theorem started_skews (i : Instr) (c : Channel) :
    (frameStart race (startState i s)).counters[Counter.ofChannel c 7] = s.counters[Counter.ofChannel c 7] +
      if ∃ tag, (c, tag) ∈ skewed (handedBack race s) then 1 else 0 := by
  have hnodup : ((skewed (handedBack race s)).map Prod.fst).Nodup :=
    List.pairwise_map.mpr ((skewed_ascending race s).imp fun h => Fin.ne_of_lt h)
  have hmem : c ∈ (skewed (handedBack race s)).map Prod.fst ↔ ∃ tag, (c, tag) ∈ skewed (handedBack race s) := by
    simp
  rw [started_counter race s i _ (ofChannel_ne_global c 7 (by decide)) fun l => ofChannel_ne_ofLink c 7 l 3, count_skews,
    ← handedBack, hnodup.count]
  simp only [hmem]
  split <;> rfl

theorem started_skewed (i : Instr) : (frameStart race (startState i s)).counters[7] = s.counters[7] +
    if skewed (handedBack race s) = [] then 0 else 1 := started_skewReleases race s i

end Skew

/-- Settles O34: the channels whose tag differs from the reference's are counted and notified. -/
theorem tagSkewCounted : Obligations.TagSkewCounted := by
  constructor
  · intro i race s hs hsound hnone
    have hnil := handedBack_eq_nil race hsound.receivers hnone
    refine ⟨_, exec_starts hs, ?_, fun c => ?_, fun l c ref tag refTag frame hmem => ?_⟩
    · rw [started_skewed, hnil]
      exact add_zero _
    · rw [started_skews, hnil, if_neg fun h => let ⟨tag, h⟩ := h; List.not_mem_nil h]
      exact add_zero _
    · obtain ⟨-, -, rest, hcons, -⟩ := (skew_mem_handedTo race s l c ref tag refTag frame).mp hmem
      exact nomatch hnil.symm.trans hcons
  · intro i race s ref refTag hs hsound hr hp hv hmin
    have hok := hsound.receivers
    obtain ⟨rest, hcons⟩ := handedBack_eq_cons race hok hr hp hv hmin
    have hskewed (c : Channel) (tag : Word32) : (c, tag) ∈ skewed (handedBack race s) ↔ SkewedFrom race s refTag c tag := by
      rw [hcons, mem_skewed, ← hcons, mem_handedBack race hok]
      exact ⟨fun ⟨⟨_, hp, hv⟩, hne⟩ => ⟨hp, hv, hne⟩, fun ⟨hp, hv, hne⟩ => ⟨⟨hr, hp, hv⟩, hne⟩⟩
    refine ⟨_, exec_starts hs, fun c => ⟨fun h => ?_, fun h => ?_⟩, fun h => ?_, fun h => ?_,
      fun l c r tag rTag frame => ?_⟩
    · rw [started_skews, if_pos (h.imp fun tag => (hskewed c tag).mpr)]
    · rw [started_skews, if_neg fun ⟨tag, ht⟩ => h tag ((hskewed c tag).mp ht)]
      exact add_zero _
    · obtain ⟨c, tag, h⟩ := h
      rw [started_skewed, if_neg (List.ne_nil_of_mem ((hskewed c tag).mpr h))]
    · rw [started_skewed, if_pos (List.eq_nil_iff_forall_not_mem.mpr fun p hmem => h p.1 p.2 ((hskewed p.1 p.2).mp hmem))]
      exact add_zero _
    · rw [skew_mem_handedTo, turnNumber_of_release s hr, ← hskewed]
      constructor
      · rintro ⟨hl, hf, rest', hcons', hmem⟩
        cases hcons.symm.trans hcons'
        exact ⟨hl, by rw [hcons]; exact hmem, rfl, rfl, hf⟩
      · rintro ⟨hl, hmem, rfl, rfl, hf⟩
        exact ⟨hl, hf, rest, hcons, by rw [← hcons]; exact hmem⟩

end Sys2Proof.Proofs

/-! ### The order of the notices of a frame start (R150, R151, R197)

Each emission has a place of its own in the order barrier, engine, barrier, receivers; the order that a port asks for moves
it only where R151 allows it; and of each emission a port is handed at most one notice. -/
namespace Sys2Proof.Proofs

open Sys2Proof.Machine

section Order

/-- The place of an emission in the order barrier, engine, barrier, receivers. -/
def keyPlace : NoticeKey → Nat
  | .stalled c => c.val
  | .swapped => 12
  | .skew c => 13 + c.val
  | .release => 25
  | .inputLost c => 26 + c.val

/-- One emission stands before another in that order. -/
def PlacedBefore (e e' : Emission) : Prop := keyPlace e.key < keyPlace e'.key

/-- One emission may be handed before another: it is another one, and no later stage of the barrier's order. -/
def MayPrecede (e e' : Emission) : Prop :=
  e.key ≠ e'.key ∧ ∀ m n, keyStage e.key = some m → keyStage e'.key = some n → m ≤ n

theorem mayPrecede_of_placedBefore {e e' : Emission} (h : PlacedBefore e e') : MayPrecede e e' := by
  refine ⟨fun he => Nat.ne_of_lt h (congrArg keyPlace he), fun m n hm hn => ?_⟩
  unfold PlacedBefore at h
  generalize e.key = k, e'.key = k' at h hm hn
  cases k <;> cases k' <;> simp only [keyStage, keyPlace, Option.some.injEq, reduceCtorEq] at h hm hn <;> omega

theorem placed_append {l l' : List Emission} (n : Nat) (h : l.Pairwise PlacedBefore) (h' : l'.Pairwise PlacedBefore)
    (hl : ∀ e ∈ l, keyPlace e.key < n) (hl' : ∀ e ∈ l', n ≤ keyPlace e.key) : (l ++ l').Pairwise PlacedBefore :=
  List.pairwise_append.mpr ⟨h, h', fun e he e' he' => Nat.lt_of_lt_of_le (hl e he) (hl' e' he')⟩

theorem placed_of_length_le_one {l : List Emission} (h : l.length ≤ 1) : l.Pairwise PlacedBefore := by
  match l, h with
  | [], _ => exact List.Pairwise.nil
  | [e], _ => exact List.pairwise_singleton _ _

variable (race : FrameRace) (s : State)

theorem skewEmissions_placed {d : Decision} {promoted : List (Channel × Word32)}
    (h : (skewed promoted).Pairwise fun p q => p.1 < q.1) :
    (skewEmissions d s promoted).Pairwise PlacedBefore ∧
      ∀ e ∈ skewEmissions d s promoted, ∃ c : Channel, keyPlace e.key = 13 + c.val := by
  cases promoted with
  | nil => exact ⟨List.Pairwise.nil, fun e he => absurd he List.not_mem_nil⟩
  | cons r rest =>
    refine ⟨List.pairwise_map.mpr (h.imp fun {p q} hpq => ?_), fun e he => ?_⟩
    · exact Nat.add_lt_add_left (Fin.lt_def.mp hpq) 13
    · obtain ⟨p, -, rfl⟩ := List.mem_map.mp he
      exact ⟨p.1, rfl⟩

/-- What a release emits (R150, R151). -/
def releaseEmission (d : Decision) (turns : Vector Turning 12) (s : State) : Emission :=
  { key := .release, hands := releaseHands d turns s }

theorem frameEmissions_placed :
    (frameEmissions (decision s) (receiverTurns race (decision s) s) s).Pairwise PlacedBefore := by
  have hchannels : channels.Pairwise (· < ·) := by decide
  have hstalls : ((channels.filter (stalls (decision s) s)).map (stalledEmission (decision s) s)).Pairwise PlacedBefore :=
    List.pairwise_map.mpr (hchannels.filter _)
  have hstallPlace (e : Emission) (he : e ∈ (channels.filter (stalls (decision s) s)).map (stalledEmission (decision s) s)) :
      keyPlace e.key < 12 := by
    obtain ⟨c, -, rfl⟩ := List.mem_map.mp he
    exact c.isLt
  have hswapPlace (e : Emission) (he : e ∈ (swapTaken (decision s) s).toList.map (swapEmission (decision s) s)) :
      keyPlace e.key = 12 := by
    obtain ⟨k, -, rfl⟩ := List.mem_map.mp he
    rfl
  obtain ⟨hskews, hskewPlace⟩ := skewEmissions_placed s (d := decision s) (skewed_ascending race s)
  have hlosses : (channels.filterMap fun c => ((receiverTurns race (decision s) s)[c]).lost.map (lossEmission c)).Pairwise
      PlacedBefore := by
    refine List.Pairwise.filterMap _ (fun c c' hlt e he e' he' => ?_) hchannels
    obtain ⟨f, -, rfl⟩ := Option.map_eq_some_iff.mp he
    obtain ⟨f', -, rfl⟩ := Option.map_eq_some_iff.mp he'
    exact Nat.add_lt_add_left (Fin.lt_def.mp hlt) 26
  have hlossPlace (e : Emission)
      (he : e ∈ channels.filterMap fun c => ((receiverTurns race (decision s) s)[c]).lost.map (lossEmission c)) :
      26 ≤ keyPlace e.key := by
    obtain ⟨c, -, hc⟩ := List.mem_filterMap.mp he
    obtain ⟨f, -, rfl⟩ := Option.map_eq_some_iff.mp hc
    exact Nat.le_add_right _ _
  have hrelease (e : Emission)
      (he : e ∈ if (decision s).isRelease then [releaseEmission (decision s) (receiverTurns race (decision s) s) s] else []) :
      keyPlace e.key = 25 := by
    split at he
    · rw [List.mem_singleton.mp he]
      rfl
    · cases he
  rw [frameEmissions_eq]
  refine placed_append 26 (placed_append 25 (placed_append 13 (placed_append 12 hstalls
    (placed_of_length_le_one ?_) hstallPlace fun e he => (hswapPlace e he).ge) hskews ?_ ?_)
    (placed_of_length_le_one ?_) ?_ fun e he => (hrelease e he).ge) hlosses ?_ hlossPlace
  · cases swapTaken (decision s) s <;> simp
  · intro e he
    rcases List.mem_append.mp he with he | he
    · exact Nat.lt_succ_of_lt (hstallPlace e he)
    · exact (hswapPlace e he).trans_lt (by decide)
  · intro e he
    obtain ⟨c, hc⟩ := hskewPlace e he
    omega
  · split <;> simp
  · intro e he
    rcases List.mem_append.mp he with he | he
    · rcases List.mem_append.mp he with he | he
      · exact (hstallPlace e he).trans (by decide)
      · exact (hswapPlace e he).trans_lt (by decide)
    · obtain ⟨c, hc⟩ := hskewPlace e he
      omega
  · intro e he
    rcases List.mem_append.mp he with he | he
    · rcases List.mem_append.mp he with he | he
      · rcases List.mem_append.mp he with he | he
        · exact (hstallPlace e he).trans (by decide)
        · exact (hswapPlace e he).trans_lt (by decide)
      · obtain ⟨c, hc⟩ := hskewPlace e he
        omega
    · exact (hrelease e he).trans_lt (by decide)

/-- Ordering the emissions as a port asks keeps what may stand before what. -/
theorem orderEmissions_mayPrecede (ks : List NoticeKey) : ∀ es : List Emission, es.Pairwise MayPrecede →
    (orderEmissions ks es).Pairwise MayPrecede := by
  induction ks with
  | nil => exact fun _ h => h
  | cons k ks ih =>
    intro es h
    unfold orderEmissions
    split
    · next hgo =>
      refine List.pairwise_append.mpr ⟨h.filter _, ih _ (h.filter _), fun e he e' he' => ?_⟩
      rw [(orderEmissions_perm ks _).mem_iff] at he'
      rw [List.mem_filter, decide_eq_true_iff] at he he'
      refine ⟨fun hk => he'.2 (hk ▸ he.2), fun m n hm hn => ?_⟩
      rw [he.2] at hm
      simp only [mayGo, hm, List.all_eq_true] at hgo
      have hstage := hgo e' he'.1
      simp only [hn, decide_eq_true_eq] at hstage
      exact hstage
    · exact ih es h

end Order

end Sys2Proof.Proofs

/-! ### What one port is handed at a frame start (R150, R151, R197) -/
namespace Sys2Proof.Proofs

open Sys2Proof.Machine

section OnePort

/-- What an emission has for one link. -/
def handsTo (l : Link) (e : Emission) : List NoticeBody := (e.hands.filter fun n => decide (n.1 = l)).map Prod.snd

theorem mem_handsTo (l : Link) (e : Emission) (b : NoticeBody) : b ∈ handsTo l e ↔ (l, b) ∈ e.hands := by
  rw [handsTo, List.mem_map]
  constructor
  · rintro ⟨⟨m, b⟩, hn, rfl⟩
    obtain ⟨hmem, hm⟩ := List.mem_filter.mp hn
    rw [← of_decide_eq_true hm]
    exact hmem
  · exact fun h => ⟨(l, b), List.mem_filter.mpr ⟨h, decide_eq_true rfl⟩, rfl⟩

theorem handedTo_eq (race : FrameRace) (s : State) (l : Link) : handedTo race s l =
    (orderEmissions race.notices[l] (frameEmissions (decision s) (receiverTurns race (decision s) s) s)).flatMap
      (handsTo l) := by
  rw [handedTo, noticesAt, List.filter_flatMap, List.map_flatMap]
  rfl

/-- An emission names no port twice. -/
theorem hands_nodup {d : Decision} {turns : Vector Turning 12} {s : State} {e : Emission}
    (h : e ∈ frameEmissions d turns s) : (e.hands.map Prod.fst).Nodup := by
  have hchannel (c : Channel) : [tileLink c, SL].Nodup := (by decide : ∀ c : Channel, [tileLink c, SL].Nodup) c
  rcases (mem_frameEmissions d turns s e).mp h with
    ⟨c, -, rfl⟩ | ⟨k, -, rfl⟩ | ⟨ref, rest, p, -, -, rfl⟩ | ⟨-, rfl⟩ | ⟨c, f, -, rfl⟩
  · exact hchannel c
  · change ((commitHands _ _).map Prod.fst).Nodup
    unfold commitHands
    split
    · exact List.nodup_singleton _
    · simpa using ‹_›
  · exact hchannel p.1
  · have hall : (channels.map tileLink ++ [SL]).Nodup := by decide
    refine List.Nodup.sublist ?_ hall
    change ((releaseHands _ _ _).map Prod.fst).Sublist _
    rw [releaseHands, List.map_append, List.map_map]
    exact List.Sublist.append (List.filter_sublist.map tileLink) (List.Sublist.refl _)
  · exact hchannel c

/-- So of one emission a port is handed at most one notice. -/
theorem handsTo_pairwise {e : Emission} (h : (e.hands.map Prod.fst).Nodup) (l : Link)
    (R : NoticeBody → NoticeBody → Prop) : (handsTo l e).Pairwise R := by
  refine List.pairwise_map.mpr (List.pairwise_filter.mpr ((List.pairwise_map.mp h).imp fun hne hn hn' => ?_))
  exact absurd ((of_decide_eq_true hn).trans (of_decide_eq_true hn').symm) hne

/-- The name under which a notice of a frame start is emitted. -/
def bodyKey : NoticeBody → Option NoticeKey
  | .stalled c _ _ => some (.stalled c)
  | .swapped _ _ _ _ => some .swapped
  | .skew c _ _ _ _ => some (.skew c)
  | .release _ _ _ | .summary _ _ _ _ _ => some .release
  | .inputLost c _ _ => some (.inputLost c)
  | .armed _ _ _ | .failed _ _ _ _ | .aborted _ _ _ _ | .inputRestored _ _ | .rejoined _ _ | .timing _ _ _ _ => none

theorem noticeStage_eq (b : NoticeBody) : noticeStage b = (bodyKey b).bind keyStage := by
  cases b <;> rfl

theorem bodyKey_of_mem {d : Decision} {turns : Vector Turning 12} {s : State} {e : Emission}
    (h : e ∈ frameEmissions d turns s) {l : Link} {b : NoticeBody} (hb : (l, b) ∈ e.hands) : bodyKey b = some e.key := by
  rcases (mem_frameEmissions d turns s e).mp h with
    ⟨c, -, rfl⟩ | ⟨k, -, rfl⟩ | ⟨ref, rest, p, -, -, rfl⟩ | ⟨-, rfl⟩ | ⟨c, f, -, rfl⟩
  · obtain ⟨-, rfl⟩ := (mem_channelHands c b _ l).mp hb
    rfl
  · obtain ⟨-, rfl⟩ := (mem_commitHands _ l b _).mp hb
    rfl
  · obtain ⟨-, rfl⟩ := (mem_channelHands _ b _ l).mp hb
    rfl
  · rcases (mem_releaseHands d turns s l b).mp hb with ⟨c, -, -, rfl⟩ | ⟨-, rfl⟩ <;> rfl
  · obtain ⟨-, rfl⟩ := (mem_channelHands c b _ l).mp hb
    rfl

variable (race : FrameRace) (s : State) (l : Link)

/-- The notices a port is handed are all different, and stand in the order of their stages. -/
theorem handedTo_pairwise : (handedTo race s l).Pairwise fun a b =>
    a ≠ b ∧ ∀ m n, noticeStage a = some m → noticeStage b = some n → m ≤ n := by
  have hmem {e : Emission} (he : e ∈ orderEmissions race.notices[l]
      (frameEmissions (decision s) (receiverTurns race (decision s) s) s)) :
      e ∈ frameEmissions (decision s) (receiverTurns race (decision s) s) s :=
    (orderEmissions_perm _ _).mem_iff.mp he
  have hordered := orderEmissions_mayPrecede race.notices[l] _
    ((frameEmissions_placed race s).imp mayPrecede_of_placedBefore)
  rw [handedTo_eq, List.pairwise_flatMap]
  refine ⟨fun e he => handsTo_pairwise (hands_nodup (hmem he)) l _, hordered.imp_of_mem fun he he' h a ha b hb => ?_⟩
  have hkey := bodyKey_of_mem (hmem he) ((mem_handsTo l _ a).mp ha)
  have hkey' := bodyKey_of_mem (hmem he') ((mem_handsTo l _ b).mp hb)
  refine ⟨?_, fun m n hm hn => h.2 m n ?_ ?_⟩
  · rintro rfl
    exact h.1 (Option.some_inj.mp (hkey.symm.trans hkey'))
  · rw [noticeStage_eq, hkey] at hm
    exact hm
  · rw [noticeStage_eq, hkey'] at hn
    exact hn

/-! #### The port and its notices-lost counter -/

theorem handedTo_hands : noticesAt race (frameEmissions (decision s) (receiverTurns race (decision s) s) s) l =
    (handedTo race s l).map fun b => (l, b) := by
  rw [handedTo, List.map_map]
  refine ((List.map_congr_left fun n hn => ?_).trans (List.map_id _)).symm
  exact Prod.ext ((mem_noticesAt race _ l n).mp hn).1.symm rfl

theorem hand_counters (m : Link) (b : NoticeBody) (s : State) : (hand m b s).counters =
    if (s.ports[m].hand (noticeChannel m b) b).2 = true then (bump (Counter.ofLink m 3) s).counters else s.counters := by
  unfold hand
  dsimp only
  split <;> rfl

theorem hand_lostCounter_other {m : Link} (h : m ≠ l) (b : NoticeBody) (s : State) :
    (hand m b s).counters[Counter.ofLink l 3] = s.counters[Counter.ofLink l 3] := by
  rw [hand_counters]
  split
  · exact bump_counter_other (fun he => h (ofLink_inj.mp he).1) s
  · rfl

theorem hand_lostCounter_congr (b : NoticeBody) {s s' : State} (hport : s.ports[l] = s'.ports[l])
    (hcount : s.counters[Counter.ofLink l 3] = s'.counters[Counter.ofLink l 3]) :
    (hand l b s).counters[Counter.ofLink l 3] = (hand l b s').counters[Counter.ofLink l 3] := by
  rw [hand_counters, hand_counters, hport]
  split
  · simp only [Fin.getElem_fin, getElem_bump, if_true] at hcount ⊢
    rw [hcount]
  · exact hcount

/-- A notices-lost counter is left as the notices of its own link leave it. -/
theorem handAll_lostCounter (ns : List (Link × NoticeBody)) : ∀ s s' : State, s.ports[l] = s'.ports[l] →
    s.counters[Counter.ofLink l 3] = s'.counters[Counter.ofLink l 3] →
    (handAll ns s).counters[Counter.ofLink l 3] =
      (handAll (ns.filter fun n => decide (n.1 = l)) s').counters[Counter.ofLink l 3] := by
  induction ns with
  | nil => exact fun _ _ _ h => h
  | cons n ns ih =>
    obtain ⟨m, b⟩ := n
    intro s s' hport hcount
    by_cases e : m = l
    · subst e
      rw [List.filter_cons_of_pos (by simp)]
      exact ih _ _ (hand_ports_congr m m b hport) (hand_lostCounter_congr m b hport hcount)
    · rw [List.filter_cons_of_neg (by simpa using e)]
      exact ih _ _ ((hand_other e b s).trans hport) ((hand_lostCounter_other l e b s).trans hcount)

theorem frameStart_lostCounter : (frameStart race s).counters[Counter.ofLink l 3] =
    (handAll (noticesAt race (frameEmissions (decision s) (receiverTurns race (decision s) s) s) l) s).counters[
      Counter.ofLink l 3] := by
  unfold frameStart
  dsimp only
  rw [handAll_lostCounter l _ _ s ?_ ?_, frameNotices_filter]
  · rw [bumpAll_eq]
    change (swapAt (decision s) s).ports[l] = _
    rw [swapAt_frame]
  · rw [beginFrames_counters, getElem_bumpAll, count_ofLink]
    exact (add_zero _).trans (swapAt_counters _ _ _ (Ne.symm (global_ne_ofLink (by decide) l 3)))

/-- A port and its notices-lost counter after the frame start that a command takes. -/
theorem started_port (i : Instr) : (frameStart race (startState i s)).ports[l] =
      (handAll ((handedTo race s l).map fun b => (l, b)) s).ports[l] ∧
    (frameStart race (startState i s)).counters[Counter.ofLink l 3] =
      (handAll ((handedTo race s l).map fun b => (l, b)) s).counters[Counter.ofLink l 3] := by
  have hall : ((handedTo race s l).map fun b => (l, b)).filter (fun n => decide (n.1 = l)) =
      (handedTo race s l).map fun b => (l, b) := by
    simp [List.filter_map, Function.comp_def]
  constructor
  · refine (frameStart_port race (startState i s) l).trans ((handAll_port l _ (startState i s) s rfl).trans ?_)
    exact congrArg (fun ns => (handAll ns s).ports[l]) ((congrArg _ (handedTo_hands race s l)).trans hall)
  · refine (frameStart_lostCounter race (startState i s) l).trans ((handAll_lostCounter l _ (startState i s) s rfl rfl).trans ?_)
    exact congrArg (fun ns => (handAll ns s).counters[Counter.ofLink l 3])
      ((congrArg _ (handedTo_hands race s l)).trans hall)

/-! #### The RELEASE notices -/

/-- A mask of channels is the set of those whose bits it has. -/
theorem eq_channelSet_iff (m : ChannelSet) (f : Channel → Bool) :
    m = channelSet f ↔ ∀ c : Channel, m.getLsbD c.val = true ↔ f c = true := by
  constructor
  · rintro rfl c
    rw [getLsbD_channelSet]
  · intro h
    refine BitVec.eq_of_getLsbD_eq fun k hk => ?_
    exact (Bool.eq_iff_iff.mpr (h ⟨k, hk⟩)).trans (getLsbD_channelSet f ⟨k, hk⟩).symm

variable {s}

theorem forced_of_release (h : ReleaseDue s) : decision s = .forced ↔ ∃ c, InP s c ∧ ¬ Ready s c := by
  rw [decision_forced_iff]
  refine ⟨fun hf => hf.2.1, fun hlate => ⟨h.1, hlate, h.2.2.resolve_left fun hr => ?_⟩⟩
  obtain ⟨c, hc, hn⟩ := hlate
  exact hn (hr c hc)

/-- The FORCED flag of the RELEASE notices. -/
theorem forced_eq_iff (h : ReleaseDue s) (forced : Bool) :
    forced = decide (decision s = .forced) ↔ (forced = true ↔ ∃ c, InP s c ∧ ¬ Ready s c) := by
  rw [Bool.eq_iff_iff, decide_eq_true_iff, forced_of_release h]

/-- The outcome that a tile RELEASE reports, channel by channel (R150). -/
theorem releaseOutcome_iff {c : Channel} (hok : ReceiverOk s.receivers[c]) (he : (s.barrier.channels[c]).enrolled = true)
    (outcome : ReleaseOutcome) : outcome = releaseOutcome (receiverTurns race (decision s) s) s c ↔
      ((s.barrier.channels[c]).stalled = true → outcome = .heldStalled) ∧
      (InP s c → ¬ Ready s c → outcome = .heldLate) ∧
      (InP s c → Ready s c → ∃ tag, outcome = .swapped tag ∧ ∀ v, tag = some v ↔ HandsBack race s c v) := by
  unfold releaseOutcome
  rw [getElem_receiverTurns]
  by_cases hst : (s.barrier.channels[c]).stalled = true
  · rw [if_pos hst]
    have hnot : ¬ InP s c := fun hp => by rw [hp.2] at hst; cases hst
    exact ⟨fun h => ⟨fun _ => h, fun hp => absurd hp hnot, fun hp => absurd hp hnot⟩, fun h => h.1 hst⟩
  · rw [if_neg hst]
    have hp : InP s c := ⟨he, Bool.eq_false_iff.mpr hst⟩
    by_cases hr : Ready s c
    · rw [if_pos ((isReady_iff s c).mpr hr)]
      constructor
      · rintro rfl
        exact ⟨fun h => absurd h hst, fun _ hn => absurd hr hn, fun _ _ => ⟨_, rfl, turnOf_tag_iff race hok⟩⟩
      · rintro ⟨-, -, h⟩
        obtain ⟨tag, rfl, htag⟩ := h hp hr
        exact congrArg _ (Option.ext fun v => (htag v).trans (turnOf_tag_iff race hok v).symm)
    · rw [if_neg (mt (isReady_iff s c).mp hr)]
      exact ⟨fun h => ⟨fun hs => absurd hs hst, fun _ _ => h, fun _ h => absurd h hr⟩, fun h => h.2.1 hp hr⟩

theorem handedTo_kinds (b : NoticeBody) (h : b ∈ handedTo race s l) :
    b.kind ≠ .timing ∧ (b.kind = .commit → ∃ k n f p, b = .swapped k n f p) ∧
      (b.kind = .channel → (∃ c f p, b = .stalled c f p) ∨ (∃ c v r w f, b = .skew c v r w f) ∨
        ∃ c v h, b = .inputLost c v h) := by
  obtain ⟨e, he, hb⟩ := (mem_handedTo race s l b).mp h
  have hkey := bodyKey_of_mem he hb
  cases b <;> simp [bodyKey] at hkey <;> simp [NoticeBody.kind]

end OnePort

/-- Settles O35: what each port is handed at a frame start, in which order, and the RELEASE notices of a release. -/
theorem releaseNoticesQueued : Obligations.ReleaseNoticesQueued := by
  intro i race s l hs hsound
  have hpairs := handedTo_pairwise race s l
  obtain ⟨hport, hlost⟩ := started_port race s l i
  refine ⟨_, exec_starts hs, hport, hlost, hpairs.imp And.left, hpairs.imp And.right, handedTo_kinds race l,
    fun frame forced outcome => ?_, fun frame forced turned late taken => ?_⟩
  · rw [release_mem_handedTo, isRelease_iff]
    constructor
    · rintro ⟨hr, c, he, hl, hf, hforced, ho⟩
      exact ⟨c, hl, hr, he, hf.trans (turnNumber_of_release s hr), (forced_eq_iff hr forced).mp hforced,
        (releaseOutcome_iff race (hsound.receivers c) he outcome).mp ho⟩
    · rintro ⟨c, hl, hr, he, hf, hforced, ho⟩
      exact ⟨hr, c, he, hl, hf.trans (turnNumber_of_release s hr).symm, (forced_eq_iff hr forced).mpr hforced,
        (releaseOutcome_iff race (hsound.receivers c) he outcome).mpr ho⟩
  · rw [summary_mem_handedTo, isRelease_iff, eq_channelSet_iff, eq_channelSet_iff]
    have hturned (c : Channel) : (participates s c && isReady s c) = true ↔ InP s c ∧ Ready s c := by
      rw [Bool.and_eq_true, participates_iff, isReady_iff]
    have hlate (c : Channel) : (participates s c && !isReady s c) = true ↔ InP s c ∧ ¬ Ready s c := by
      rw [Bool.and_eq_true, participates_iff, Bool.not_eq_true', ← Bool.not_eq_true, isReady_iff]
    have htaken : taken = (swapTaken (decision s) s).isSome ↔ (taken = true ↔ AnySwap s) := by
      rw [← swapTaken_isSome_iff]
      exact Bool.eq_iff_iff
    simp only [hturned, hlate, htaken]
    constructor
    · rintro ⟨hr, hl, hf, hforced, ht, hlt, hs⟩
      exact ⟨hl, hr, hf.trans (turnNumber_of_release s hr), (forced_eq_iff hr forced).mp hforced, hs,
        fun c => ⟨ht c, hlt c⟩⟩
    · rintro ⟨hl, hr, hf, hforced, hs, h⟩
      exact ⟨hr, hl, hf.trans (turnNumber_of_release s hr).symm, (forced_eq_iff hr forced).mpr hforced,
        fun c => (h c).1, fun c => (h c).2, hs⟩

end Sys2Proof.Proofs
